-- ==== Sys2Proof/Word.lean ====
section
/-! DEFINITION. The two bit-vector types of the core: the byte the bus moves (XLEN8) and the 16-bit
address or register pair (ALEN), 00_scope.md rules R7 and R11. -/

namespace Sys2Proof

/-- A byte: a register half, a bus datum, an opcode (R7 XLEN8). Bit 0 is the least significant (R11). -/
abbrev Byte := BitVec 8

/-- A 16-bit value: a register pair, SP, PC, a bus address (R7 ALEN). -/
abbrev Word := BitVec 16

end Sys2Proof
end

