-- ==== Sys2Proof/Config.lean ====
section
/-! DEFINITION. The parameters of 00_scope.md rule R7 that the spec leaves OPEN: they are arguments of
the model, so they stand in one record that `State` carries and no step changes. The other open
parameters are data of `State` too: MAP is `State.bus`, MEM0 and the ROM image are `State.mem`,
CPU_ID is the constructor `Master.cpu`, RESET is
`ResetValues`. The file also holds the environment's moves (R14) and the free choice among them. -/

namespace Sys2Proof

/-- The open parameters (R7). A claim over every state is a claim for every value of them. -/
structure Config where
  /-- LCD_STAT_SCANNED: whether the priority encoder tests the LCD-status bit (R407, D15). -/
  lcdStatScanned : Bool
  /-- N_DEV: the fixed device limit of the bus connection table (R66, D18). -/
  nDev : Nat
  /-- PQ_CAP: the capacity of the priority queue (R372, D19). -/
  pqCap : Nat
  /-- TS_WRAP: the scheduler's threshold (R384, D20). -/
  tsWrap : Nat
  deriving DecidableEq, Repr

/-- The defaults of R7: the gap in the scan kept, 16 devices, 64 events, threshold 2^63. -/
def Config.default : Config :=
  { lcdStatScanned := false, nDev := 16, pqCap := 64, tsWrap := 2 ^ 63 }

/-- The constraints R7, R372 and R384 put on the parameters. -/
def Config.wf (p : Config) : Bool :=
  decide (1 ≤ p.pqCap) && decide (0 < p.tsWrap) && decide (p.tsWrap < 2 ^ 64)

/-! ## The environment -/

/-- A device event (R381): a 64-bit timestamp and an action, an opaque token the core hands back. -/
structure Machine.Event where
  timestamp : BitVec 64
  action : Nat
  deriving DecidableEq, Repr

/-- The environment's moves (R14) as data. Other bus masters are numbered; a source is a number, legal
below 5 (R402). `register` is not here: it is part of boot wiring, before the first step (R452). -/
inductive Machine.Move where
  /-- Trigger one CPU step (R40). -/
  | cpuStep
  /-- `set_flag(source)` (R404). -/
  | setFlag (source : Nat)
  /-- `clear_flag(source)` (R405). -/
  | clearFlag (source : Nat)
  /-- `BusRead(M, a)` by a master other than the CPU (R68, R75). -/
  | busRead (master : Nat) (addr : Word)
  /-- `BusWrite(M, a, v)` by a master other than the CPU (R69, R75). -/
  | busWrite (master : Nat) (addr : Word) (v : Byte)
  /-- `lock(M)` (R74). -/
  | lock (master : Nat)
  /-- `unlock(M)` (R74). -/
  | unlock (master : Nat)
  /-- `schedule(e)` (R383). -/
  | schedule (e : Machine.Event)
  /-- `execute_next()` (R385). -/
  | executeNext
  /-- `push(e)` (R378). -/
  | push (e : Machine.Event)
  /-- `pop()` (R379). -/
  | pop
  /-- `front()` (R377). -/
  | front
  /-- `is_empty()` (R375). -/
  | isEmpty
  /-- `is_full()` (R376). -/
  | isFull
  deriving DecidableEq, Repr, Inhabited

/-- FREE VALUE (log entry 22): the move the environment makes as number `turn` of run `run`. Nothing
constrains it: the environment may make its moves "in any order" and in any number (R9, R14), and a run may
be infinite (R15). -/
opaque Config.freeMove (run turn : Nat) : Machine.Move

end Sys2Proof
end

