-- ==== Sys2Proof/Machine/Device.lean ====
section
/-! DEFINITION. The entry points of a Device Connection as plain data (20_memory.md rules R62, R71 and R72):
MAP is an open parameter (00_scope.md rule R7), so what a device's `read` and `write` do is an argument of
the model. An entry point is given by three expressions over the owner's own state, the full bus address
and the written byte: whether the status is failing, the byte answered, and the state afterwards.
`Laws/Device.lean` shows that every device with finitely many states can be written so. -/

namespace Sys2Proof.Machine

/-- The operations of a device expression, on natural numbers. -/
inductive DeviceOp where
  | add | sub | mul | div | mod | pow | and | or | xor | lt
  deriving DecidableEq, Repr

/-- An operation's value; subtraction stops at 0 and `lt` is 1 or 0. -/
def DeviceOp.eval : DeviceOp → Nat → Nat → Nat
  | .add, x, y => x + y
  | .sub, x, y => x - y
  | .mul, x, y => x * y
  | .div, x, y => x / y
  | .mod, x, y => x % y
  | .pow, x, y => x ^ y
  | .and, x, y => x &&& y
  | .or, x, y => x ||| y
  | .xor, x, y => x ^^^ y
  | .lt, x, y => if x < y then 1 else 0

/-- What a device computes from one access. -/
inductive DeviceExpr where
  /-- A number. -/
  | const (n : Nat)
  /-- The state of the connection's owner before the access. -/
  | state
  /-- The full bus address (R62: not an offset). -/
  | addr
  /-- The byte written; 0 on a read. -/
  | byte
  /-- An operation. -/
  | op (o : DeviceOp) (x y : DeviceExpr)
  /-- `x` if the condition is not 0, else `y`. -/
  | ite (c x y : DeviceExpr)
  /-- The entry of a table, 0 beyond its end. -/
  | lookup (table : List Nat) (i : DeviceExpr)
  deriving DecidableEq, Repr

/-- The value of an expression in owner state `q`, for address `a` and byte `v`. -/
def DeviceExpr.eval (q : Nat) (a : Word) (v : Byte) : DeviceExpr → Nat
  | .const n => n
  | .state => q
  | .addr => a.toNat
  | .byte => v.toNat
  | .op o x y => o.eval (x.eval q a v) (y.eval q a v)
  | .ite c x y => if c.eval q a v ≠ 0 then x.eval q a v else y.eval q a v
  | .lookup table i => table.getD (i.eval q a v) 0

/-- One entry point, `read` or `write` (R62). A failing access too may change the owner's state (R72). -/
structure EntryPoint where
  /-- The status is failing when this is not 0 (R71). -/
  fails : DeviceExpr
  /-- The byte a read answers, modulo 256; a write answers none. -/
  value : DeviceExpr
  /-- The owner's state after the access (R72). -/
  next : DeviceExpr
  deriving DecidableEq, Repr

/-- The two entry points of a connection. -/
structure DeviceProgram where
  read : EntryPoint
  write : EntryPoint
  deriving DecidableEq, Repr

/-- Whether an access reports a failing status. -/
def EntryPoint.failing (e : EntryPoint) (q : Nat) (a : Word) (v : Byte) : Bool :=
  decide (e.fails.eval q a v ≠ 0)

/-- The byte an access answers. -/
def EntryPoint.reply (e : EntryPoint) (q : Nat) (a : Word) (v : Byte) : Byte :=
  BitVec.ofNat 8 (e.value.eval q a v)

/-- The owner's state after an access. -/
def EntryPoint.after (e : EntryPoint) (q : Nat) (a : Word) (v : Byte) : Nat := e.next.eval q a v

end Sys2Proof.Machine
end

