-- ==== Sys2Proof/Machine/State.lean ====
section
/-! DEFINITION. The whole state of the core as plain data (10_state.md rule R20, 00_scope.md rule R7),
the records it is made of, the reasons a step can be refused, and the state after reset (R41). -/

namespace Sys2Proof.Machine

/-! ## Records of the bus, the interrupt controller and the queue -/

/-- The identity of a bus master. `cpu` is CPU_ID, "any value distinct from every other master's"
(R7, R76); `dev n` is a master of the environment. -/
inductive Master where
  | cpu
  | dev (n : Nat)
  deriving DecidableEq, Repr

/-- The five legal interrupt sources (R401, R402), in priority order. -/
inductive Source where
  | vblank | lcdStat | timer | serial | joypad
  deriving DecidableEq, Repr

/-- Whether a bus access reads or writes (R420, info of `UnmappedAddress`). -/
inductive Access where
  | read | write
  deriving DecidableEq, Repr

/-- The two bounded tables of the core (R420, info of `CapacityExceeded`). -/
inductive Table where
  | bus | queue
  deriving DecidableEq, Repr

/-- The queue operations that need an element (R420, info of `EmptyContainer`). -/
inductive QueueOp where
  | front | pop
  deriving DecidableEq, Repr

/-- The fault records of 60_exceptions.md rule R420, `(kind, info)`. A `raise` puts one into the
latch `State.fault` and the machine then takes no further step, so a fault of the spec is a NEXT state
of this model with all the partial effects R421 says stay; no step of the model answers with the host's
`Outcome.fault`. Latching loses nothing and adds no behaviour: safe (log entry 1). -/
inductive Fault where
  /-- Code 1. Raised by `busRead` and `busWrite` when no connection claims the address: any fetch, load,
  store, push or pop, and an environment master's access. Safe. -/
  | unmappedAddress (addr : Word) (access : Access)
  /-- Code 2. Raised by `register` with N_DEV connections present (boot wiring) and by `push` and
  `schedule` on a full queue. Safe. -/
  | capacityExceeded (table : Table)
  /-- Code 3. Raised by `front`, `pop` and `executeNext` on an empty queue. Safe. -/
  | emptyContainer (op : QueueOp)
  /-- Code 4. Raised by a meaning whose bit or restart index is out of range, which no byte sequence
  decodes to (R110). Safe. -/
  | invalidOperand (index : Nat)
  /-- Code 5, `Abort(IllegalOpcode)`. Raised by the eleven undefined first bytes (R357). Safe. -/
  | illegalOpcode (op : Byte)
  /-- Code 6, `Abort(IllegalSource)`. Raised by `getVector` on a number that is no source; never
  reached from `getTop` (R410). Safe. -/
  | illegalSource (source : Nat)
  /-- Code 7, `Abort(AddressMismatch)`. Raised by an IE or IF connection selected for a foreign
  address, which only a wrong wiring can do (R415). Safe. -/
  | addressMismatch (addr : Word)
  /-- Code 8, `Abort(DeviceFailure)`. Raised when the selected device reports a failing status (R71);
  no device of the default map does. Safe. -/
  | deviceFailure (addr : Word)
  deriving DecidableEq, Repr

/-- The numeric code of a fault kind (R420). -/
def Fault.code : Fault → Nat
  | .unmappedAddress _ _ => 1
  | .capacityExceeded _ => 2
  | .emptyContainer _ => 3
  | .invalidOperand _ => 4
  | .illegalOpcode _ => 5
  | .illegalSource _ => 6
  | .addressMismatch _ => 7
  | .deviceFailure _ => 8

/-- The reasons a step can be refused. -/
inductive Refusal where
  /-- The instruction has no meaning in the model yet: answered by `exec`'s arm of it alone. Safe. No arm
  of this model answers it. -/
  | notModelled (mnemonic : String)
  deriving DecidableEq, Repr

/-- The owner context of a Device Connection (R62): the storage its entry points act on. `device n` is
the storage of a device a platform's own map adds. -/
inductive Owner where
  | cart | wram | hram | intc
  | device (n : Nat)
  deriving DecidableEq, Repr

/-- The read and write entry points of a Device Connection (R62). The first four are those of the default
map (R80 to R83, R415), acting on the storage cells and the interrupt registers; `program` is any device a
platform's own map brings, as data; the two before it name its simplest cases (R71, R72). -/
inductive Port where
  /-- Reads give the stored byte, writes change nothing and succeed (R83). -/
  | rom
  /-- Reads give the stored byte, writes store (R81, R82). -/
  | ram
  /-- The IF register at IF_ADDR (R415). -/
  | ifReg
  /-- The IE register at IE_ADDR (R415). -/
  | ieReg
  /-- "a register auto-clearing on read" (R72): a read gives the stored byte and clears it. -/
  | clearOnRead
  /-- A device that always reports a failing status (R71). -/
  | failing
  /-- Entry points of the platform's own, acting on the owner's device state (R62, R71, R72). -/
  | program (p : DeviceProgram)
  deriving DecidableEq, Repr

/-- A Device Connection (R62). Bounds are inclusive; `start ≤ end` is not required (R66). -/
structure Connection where
  startAddr : Word
  endAddr : Word
  owner : Owner
  port : Port
  deriving DecidableEq, Repr

/-- The four flags; F[7:4] in this order, F[3:0] always 0, so F is stored as four Booleans (R25, R26). -/
structure Flags where
  z : Bool
  n : Bool
  h : Bool
  c : Bool
  deriving DecidableEq, Repr

/-- What a move of the environment is answered with (the model's own output latch, log entry 3). -/
inductive Reply where
  /-- The move was made and has no result. -/
  | done
  /-- The byte a bus read returned. -/
  | byte (v : Byte)
  /-- The event `pop`, `front` or `execute_next` handed back. -/
  | event (e : Event)
  /-- The answer of `is_empty` or `is_full`. -/
  | answer (v : Bool)
  /-- The move was not enabled (another owner holds the lock) and nothing was done. -/
  | notEnabled
  /-- The operation failed; the record is in the fault latch too (R388). -/
  | failed (k : Fault)
  deriving DecidableEq, Repr

/-- The storage of the memory devices: (cell number, byte) pairs. Canonical form: cell numbers strictly
rising, no entry equal to what an unlisted cell reads as (`Machine/Ops.lean`). -/
abbrev Memory := List Host.Cell

/-- The states of the owners whose connections are programs: (owner number, state) pairs in the same
canonical form, an unlisted owner being in state 0. -/
abbrev DeviceStates := List (Nat × Nat)

/-! ## The state -/

/-- The whole state of the core (R20), its parameters (R7), and four fields of the model's own: the
environment's pending moves, its free moves after them with their counter, and the reply to the last one. -/
structure State where
  /-- The accumulator (R21). -/
  a : Byte
  /-- The flag register F (R25, R26). -/
  f : Flags
  b : Byte
  c : Byte
  d : Byte
  e : Byte
  h : Byte
  l : Byte
  /-- The stack pointer (R24). -/
  sp : Word
  /-- The program counter (R28). -/
  pc : Word
  /-- The cycle counter, in M-cycles, modulo 2^64 (R30). -/
  cyc : BitVec 64
  /-- The interrupt master enable (R31). -/
  ime : Bool
  /-- The interrupt enable register IE (R32). -/
  ie : Byte
  /-- The interrupt request register IF (R33). -/
  ifl : Byte
  /-- Waiting for an interrupt (R34). -/
  halted : Bool
  /-- Stopped for good (R35). -/
  stopped : Bool
  /-- The fault latch (R36). -/
  fault : Option Fault
  /-- The bus lock holder (R73). -/
  lock : Option Master
  /-- The Device Connections in registration order (R63, MAP). -/
  bus : List Connection
  /-- The storage of the memory devices: ROM image, working RAM, high RAM (R20 (d), R81 to R83). -/
  mem : Memory
  /-- The internal states of the platform's devices (R20 (d), R72). -/
  devices : DeviceStates
  /-- The priority queue: `data[0 .. len-1]` (R372). -/
  queue : List Event
  /-- The open parameters (R7). -/
  cfg : Config
  /-- MODEL'S OWN: the environment's moves that come next. -/
  inputs : List Move
  /-- MODEL'S OWN: what comes after `inputs`: CPU steps alone, or the free moves of this run number. -/
  freeRun : Option Nat
  /-- MODEL'S OWN: how many free moves have been taken. -/
  turn : Nat
  /-- MODEL'S OWN: the reply to the environment's last move. -/
  reply : Option Reply
  deriving DecidableEq, Repr

/-- The outcome type of every meaning and of `step`. -/
abbrev Out := Host.Outcome State Fault Refusal

/-! ## Reset -/

/-- The default MAP in registration order (R80). -/
def defaultMap : List Connection :=
  [ ⟨0x0000, 0x7FFF, .cart, .rom⟩,
    ⟨0xC000, 0xDFFF, .wram, .ram⟩,
    ⟨0xE000, 0xFDFF, .wram, .ram⟩,
    ⟨0xFF0F, 0xFF0F, .intc, .ifReg⟩,
    ⟨0xFF80, 0xFFFE, .hram, .ram⟩,
    ⟨0xFFFF, 0xFFFF, .intc, .ieReg⟩ ]

/-- The parameter RESET (R7, D22): every row of R41's table that is not MAP or MEM0. -/
structure ResetValues where
  a : Byte
  f : Flags
  b : Byte
  c : Byte
  d : Byte
  e : Byte
  h : Byte
  l : Byte
  sp : Word
  pc : Word
  cyc : BitVec 64
  ime : Bool
  ie : Byte
  ifl : Byte
  halted : Bool
  stopped : Bool
  fault : Option Fault
  lock : Option Master
  queue : List Event
  deriving DecidableEq, Repr

/-- The values of R41's table. -/
def ResetValues.default : ResetValues :=
  { a := 0x01, f := ⟨true, false, true, true⟩,
    b := 0x00, c := 0x13, d := 0x00, e := 0xD8, h := 0x01, l := 0x4D,
    sp := 0xFFFE, pc := 0x0100, cyc := 0,
    ime := false, ie := 0x00, ifl := 0x00,
    halted := false, stopped := false, fault := none, lock := none, queue := [] }

/-- What surrounds the core at the start of a run: the open parameters (R7), MAP, the storage contents MEM0
with the ROM image, the devices' states, and the environment's moves (R14, R15). -/
structure Platform where
  cfg : Config
  map : List Connection
  mem0 : Memory
  devices0 : DeviceStates
  inputs : List Move
  freeRun : Option Nat
  deriving DecidableEq, Repr

/-- The default parameters and map, no storage cell and no device state listed (log entries 2 and 23), and
an environment that makes no move (R14: "Nothing obliges the environment to make any move"; log entry 22). -/
def Platform.default : Platform :=
  { cfg := Config.default, map := defaultMap, mem0 := [], devices0 := [], inputs := [], freeRun := none }

/-- The reset state (R41): "A model should take the whole row set as the default of a reset-state parameter". -/
def State.resetWith (r : ResetValues) (p : Platform) : State :=
  { a := r.a, f := r.f, b := r.b, c := r.c, d := r.d, e := r.e, h := r.h, l := r.l,
    sp := r.sp, pc := r.pc, cyc := r.cyc, ime := r.ime, ie := r.ie, ifl := r.ifl,
    halted := r.halted, stopped := r.stopped, fault := r.fault, lock := r.lock,
    bus := p.map, mem := p.mem0, devices := p.devices0, queue := r.queue, cfg := p.cfg,
    inputs := p.inputs, freeRun := p.freeRun, turn := 0, reply := none }

/-- The machine right after reset: R41's values on the default platform. -/
def State.reset : State := State.resetWith ResetValues.default Platform.default

end Sys2Proof.Machine
end

