-- ==== Sys2Proof/Machine/Flags.lean ====
section
/-! DEFINITION. Every result-and-flags function of the instruction set: the ALU functions of 42_alu8.md
(R191 to R196), INC, DEC, DAA and the flag instructions (R224 to R231), 16-bit addition and SP+e of
43_alu16.md (R252, R254), and the eight one-bit functions of 44_rotate_shift_bit.md (R275). -/

namespace Sys2Proof.Machine

/-- A result byte with the flags that go with it, the `(r, z, n, h, c)` of R191. -/
structure AluResult where
  r : Byte
  f : Flags
  deriving DecidableEq, Repr

/-- A carry flag as a number. -/
def carryIn (c : Bool) : Nat := if c then 1 else 0

/-! ## The accumulator operations -/

/-- `alu_add(a, b, cin)`: the sum is formed on integers, never truncated in between (R191, D21). -/
def aluAdd (a b : Byte) (cin : Bool) : AluResult :=
  let s := a.toNat + b.toNat + carryIn cin
  let r := BitVec.ofNat 8 s
  ⟨r, ⟨r == 0, false, decide (a.toNat % 16 + b.toNat % 16 + carryIn cin > 0xF), decide (s > 0xFF)⟩⟩

/-- `alu_sub(a, b, cin)`: borrow and half-borrow by comparing integers (R192, D21). -/
def aluSub (a b : Byte) (cin : Bool) : AluResult :=
  let r := a - b - BitVec.ofNat 8 (carryIn cin)
  ⟨r, ⟨r == 0, true, decide (a.toNat % 16 < b.toNat % 16 + carryIn cin),
    decide (b.toNat + carryIn cin > a.toNat)⟩⟩

/-- `alu_and(a, b)` (R193). -/
def aluAnd (a b : Byte) : AluResult := ⟨a &&& b, ⟨(a &&& b) == 0, false, true, false⟩⟩

/-- `alu_xor(a, b)` (R194). -/
def aluXor (a b : Byte) : AluResult := ⟨a ^^^ b, ⟨(a ^^^ b) == 0, false, false, false⟩⟩

/-- `alu_or(a, b)` (R195). -/
def aluOr (a b : Byte) : AluResult := ⟨a ||| b, ⟨(a ||| b) == 0, false, false, false⟩⟩

/-! ## INC, DEC, DAA, CPL, SCF, CCF -/

/-- INC of a byte: Z, N=0, H; C kept (R224). -/
def incResult (v : Byte) (f : Flags) : AluResult :=
  ⟨v + 1, ⟨(v + 1) == 0, false, decide (v.toNat % 16 = 0xF), f.c⟩⟩

/-- DEC of a byte: Z, N=1, H; C kept (R226). -/
def decResult (v : Byte) (f : Flags) : AluResult :=
  ⟨v - 1, ⟨(v - 1) == 0, true, decide (v.toNat % 16 = 0x0), f.c⟩⟩

/-- DAA on A with the flags F; both tests of the addition branch read A before the adjustment (R228). -/
def daaResult (a : Byte) (f : Flags) : AluResult :=
  let low := if f.n then f.h else f.h || decide (a.toNat % 16 > 0x09)
  let high := if f.n then f.c else f.c || decide (a.toNat > 0x99)
  let adj : Byte := (if low then 0x06 else 0x00) ||| (if high then 0x60 else 0x00)
  let r := if f.n then a - adj else a + adj
  ⟨r, ⟨r == 0, f.n, false, high⟩⟩

/-- CPL: N=1, H=1, Z and C kept (R229). -/
def cplResult (a : Byte) (f : Flags) : AluResult := ⟨a ^^^ 0xFF, { f with n := true, h := true }⟩

/-- SCF: N=0, H=0, C=1, Z kept (R230). -/
def scfFlags (f : Flags) : Flags := { f with n := false, h := false, c := true }

/-- CCF: N=0, H=0, C complemented, Z kept (R231). -/
def ccfFlags (f : Flags) : Flags := { f with n := false, h := false, c := !f.c }

/-! ## 16-bit additions -/

/-- The flags of ADD HL,rp: N=0, H out of bit 11, C out of bit 15, Z kept (R252). -/
def addHlFlags (a b : Word) (f : Flags) : Flags :=
  { f with
    n := false
    h := decide (a.toNat % 4096 + b.toNat % 4096 > 0x0FFF)
    c := decide (a.toNat + b.toNat > 0xFFFF) }

/-- The value of `sp_plus_e` (R254). -/
def spPlusE (sp : Word) (e : Byte) : Word := sp + e.signExtend 16

/-- The flags of `ADD SP,e` and `LD HL,SP+e`: Z=0, N=0, H and C from the unsigned addition of the low
byte of SP and the byte e (R253, R254). -/
def spPlusEFlags (sp : Word) (e : Byte) : Flags :=
  ⟨false, false, decide (sp.toNat % 16 + e.toNat % 16 > 0x0F),
    decide (sp.toNat % 256 + e.toNat > 0xFF)⟩

/-! ## The eight one-bit functions -/

/-- The `rot` field's functions (R275, numbering R108). -/
inductive Rot where
  | rlc | rrc | rl | rr | sla | sra | swap | srl
  deriving DecidableEq, Repr

/-- A bit as a byte. -/
def bit0 (v : Bool) : Byte := if v then 1 else 0

/-- `w` of R275. -/
def Rot.value (k : Rot) (v : Byte) (cin : Bool) : Byte :=
  match k with
  | .rlc => v <<< 1 ||| bit0 (v.getLsbD 7)
  | .rrc => bit0 (v.getLsbD 0) <<< 7 ||| v >>> 1
  | .rl => v <<< 1 ||| bit0 cin
  | .rr => bit0 cin <<< 7 ||| v >>> 1
  | .sla => v <<< 1
  | .sra => bit0 (v.getLsbD 7) <<< 7 ||| v >>> 1
  | .swap => v <<< 4 ||| v >>> 4
  | .srl => v >>> 1

/-- `c` of R275. -/
def Rot.carry (k : Rot) (v : Byte) : Bool :=
  match k with
  | .rlc | .rl | .sla => v.getLsbD 7
  | .rrc | .rr | .sra | .srl => v.getLsbD 0
  | .swap => false

/-- Result and flags of the secondary table's use: Z from the result, N=0, H=0 (R275). -/
def Rot.result (k : Rot) (v : Byte) (cin : Bool) : AluResult :=
  ⟨k.value v cin, ⟨k.value v cin == 0, false, false, k.carry v⟩⟩

/-- Result and flags of the four accumulator rotates: Z always cleared (R270, R275). -/
def Rot.accResult (k : Rot) (v : Byte) (cin : Bool) : AluResult :=
  ⟨k.value v cin, ⟨false, false, false, k.carry v⟩⟩

/-! ## BIT, RES, SET -/

/-- The flags of BIT: Z the complement of the tested bit, N=0, H=1, C kept (R296). -/
def bitFlags (v : Byte) (b : Nat) (f : Flags) : Flags :=
  { f with z := !v.getLsbD b, n := false, h := true }

/-- RES: bit b cleared (R298). -/
def resetBit (v : Byte) (b : Nat) : Byte := v &&& ~~~(1#8 <<< b)

/-- SET: bit b set (R300). -/
def setBit (v : Byte) (b : Nat) : Byte := v ||| 1#8 <<< b

end Sys2Proof.Machine
end

