-- ==== Sys2Proof/Syntax.lean ====
section
/-! DEFINITION. The instructions: one constructor for each of the 117 rows of spec/opcode_table.json,
with the operand names of 30_encoding.md rules R103 to R108 turned into types. The operation of every
instruction is in Machine/, never here. -/

namespace Sys2Proof

/-- The 8-bit register operands `r` of R104: the field value 6, the byte at HL, is a row of its own. -/
inductive Reg8 where
  | b | c | d | e | h | l | a
  deriving DecidableEq, Repr

/-- The 16-bit register operands `rp` of R105. -/
inductive Rp where
  | bc | de | hl | sp
  deriving DecidableEq, Repr

/-- The stack operands `rp2` of R106 other than AF, which has rows of its own. -/
inductive Rp2 where
  | bc | de | hl
  deriving DecidableEq, Repr

/-- The four encodable condition codes of R107; ALWAYS has no encoding and no constructor (D34). -/
inductive Cond where
  | nz | z | nc | c
  deriving DecidableEq, Repr

/-- The instructions. The bit index `b` and the restart index `t` are natural numbers that
`Instr.wf` bounds by 8; immediates are the fetched bytes (R103), a 16-bit one already put together. -/
inductive Instr where
  /-- `LD r,r'` (R141). -/
  | ldRR (dst src : Reg8)
  /-- `LD r,(HL)` (R142). -/
  | ldRHl (dst : Reg8)
  /-- `LD (HL),r` (R143). -/
  | ldHlR (src : Reg8)
  /-- `LD r,d8` (R144). -/
  | ldRD8 (dst : Reg8) (v : Byte)
  /-- `LD (HL),d8` (R145). -/
  | ldHlD8 (v : Byte)
  /-- `LD A,(BC)` (R146). -/
  | ldABc
  /-- `LD A,(DE)` (R147). -/
  | ldADe
  /-- `LD (BC),A` (R148). -/
  | ldBcA
  /-- `LD (DE),A` (R149). -/
  | ldDeA
  /-- `LD A,(a16)` (R150). -/
  | ldAA16 (addr : Word)
  /-- `LD (a16),A` (R151). -/
  | ldA16A (addr : Word)
  /-- `LDH A,(a8)` (R152). -/
  | ldhAA8 (n : Byte)
  /-- `LDH (a8),A` (R153). -/
  | ldhA8A (n : Byte)
  /-- `LD A,(C)` (R154). -/
  | ldAC
  /-- `LD (C),A` (R155). -/
  | ldCA
  /-- `LD A,(HL+)` (R156). -/
  | ldAHlInc
  /-- `LD A,(HL-)` (R157). -/
  | ldAHlDec
  /-- `LD (HL+),A` (R158). -/
  | ldHlIncA
  /-- `LD (HL-),A` (R159). -/
  | ldHlDecA
  /-- `LD rp,d16` (R170). -/
  | ldRpD16 (rp : Rp) (v : Word)
  /-- `LD (a16),SP` (R171). -/
  | ldA16Sp (addr : Word)
  /-- `LD SP,HL` (R172). -/
  | ldSpHl
  /-- `LD HL,SP+e` (R173). -/
  | ldHlSpE (e : Byte)
  /-- `PUSH rp2` (R174). -/
  | push (rp : Rp2)
  /-- `POP rp2` (R175). -/
  | pop (rp : Rp2)
  /-- `PUSH AF` (R178). -/
  | pushAf
  /-- `POP AF` (R179). -/
  | popAf
  /-- `ADD A,r` (R200). -/
  | addAR (r : Reg8)
  /-- `ADD A,(HL)` (R201). -/
  | addAHl
  /-- `ADD A,d8` (R202). -/
  | addAD8 (v : Byte)
  /-- `ADC A,r` (R203). -/
  | adcAR (r : Reg8)
  /-- `ADC A,(HL)` (R204). -/
  | adcAHl
  /-- `ADC A,d8` (R205). -/
  | adcAD8 (v : Byte)
  /-- `SUB r` (R206). -/
  | subR (r : Reg8)
  /-- `SUB (HL)` (R207). -/
  | subHl
  /-- `SUB d8` (R208). -/
  | subD8 (v : Byte)
  /-- `SBC A,r` (R209). -/
  | sbcAR (r : Reg8)
  /-- `SBC A,(HL)` (R210). -/
  | sbcAHl
  /-- `SBC A,d8` (R211). -/
  | sbcAD8 (v : Byte)
  /-- `AND r` (R212). -/
  | andR (r : Reg8)
  /-- `AND (HL)` (R213). -/
  | andHl
  /-- `AND d8` (R214). -/
  | andD8 (v : Byte)
  /-- `XOR r` (R215). -/
  | xorR (r : Reg8)
  /-- `XOR (HL)` (R216). -/
  | xorHl
  /-- `XOR d8` (R217). -/
  | xorD8 (v : Byte)
  /-- `OR r` (R218). -/
  | orR (r : Reg8)
  /-- `OR (HL)` (R219). -/
  | orHl
  /-- `OR d8` (R220). -/
  | orD8 (v : Byte)
  /-- `CP r` (R221). -/
  | cpR (r : Reg8)
  /-- `CP (HL)` (R222). -/
  | cpHl
  /-- `CP d8` (R223). -/
  | cpD8 (v : Byte)
  /-- `INC r` (R224). -/
  | incR (r : Reg8)
  /-- `INC (HL)` (R225). -/
  | incHl
  /-- `DEC r` (R226). -/
  | decR (r : Reg8)
  /-- `DEC (HL)` (R227). -/
  | decHl
  /-- `DAA` (R228). -/
  | daa
  /-- `CPL` (R229). -/
  | cpl
  /-- `SCF` (R230). -/
  | scf
  /-- `CCF` (R231). -/
  | ccf
  /-- `INC rp` (R250). -/
  | incRp (rp : Rp)
  /-- `DEC rp` (R251). -/
  | decRp (rp : Rp)
  /-- `ADD HL,rp` (R252). -/
  | addHlRp (rp : Rp)
  /-- `ADD SP,e` (R253). -/
  | addSpE (e : Byte)
  /-- `RLCA` (R271). -/
  | rlca
  /-- `RRCA` (R272). -/
  | rrca
  /-- `RLA` (R273). -/
  | rla
  /-- `RRA` (R274). -/
  | rra
  /-- `RLC r` (R280). -/
  | rlcR (r : Reg8)
  /-- `RLC (HL)` (R281). -/
  | rlcHl
  /-- `RRC r` (R282). -/
  | rrcR (r : Reg8)
  /-- `RRC (HL)` (R283). -/
  | rrcHl
  /-- `RL r` (R284). -/
  | rlR (r : Reg8)
  /-- `RL (HL)` (R285). -/
  | rlHl
  /-- `RR r` (R286). -/
  | rrR (r : Reg8)
  /-- `RR (HL)` (R287). -/
  | rrHl
  /-- `SLA r` (R288). -/
  | slaR (r : Reg8)
  /-- `SLA (HL)` (R289). -/
  | slaHl
  /-- `SRA r` (R290). -/
  | sraR (r : Reg8)
  /-- `SRA (HL)` (R291). -/
  | sraHl
  /-- `SWAP r` (R292). -/
  | swapR (r : Reg8)
  /-- `SWAP (HL)` (R293). -/
  | swapHl
  /-- `SRL r` (R294). -/
  | srlR (r : Reg8)
  /-- `SRL (HL)` (R295). -/
  | srlHl
  /-- `BIT b,r` (R296). -/
  | bitBR (b : Nat) (r : Reg8)
  /-- `BIT b,(HL)` (R297). -/
  | bitBHl (b : Nat)
  /-- `RES b,r` (R298). -/
  | resBR (b : Nat) (r : Reg8)
  /-- `RES b,(HL)` (R299). -/
  | resBHl (b : Nat)
  /-- `SET b,r` (R300). -/
  | setBR (b : Nat) (r : Reg8)
  /-- `SET b,(HL)` (R301). -/
  | setBHl (b : Nat)
  /-- `JP a16` (R321). -/
  | jpA16 (addr : Word)
  /-- `JP cc,a16` (R322). -/
  | jpCcA16 (cc : Cond) (addr : Word)
  /-- `JP HL` (R323). -/
  | jpHl
  /-- `JR e` (R324). -/
  | jrE (e : Byte)
  /-- `JR cc,e` (R325). -/
  | jrCcE (cc : Cond) (e : Byte)
  /-- `CALL a16` (R326). -/
  | callA16 (addr : Word)
  /-- `CALL cc,a16` (R327). -/
  | callCcA16 (cc : Cond) (addr : Word)
  /-- `RET` (R328). -/
  | ret
  /-- `RETI` (R329). -/
  | reti
  /-- `RET cc` (R330). -/
  | retCc (cc : Cond)
  /-- `RST t` (R331). -/
  | rstT (t : Nat)
  /-- `NOP` (R350). -/
  | nop
  /-- The base-table entry 0xCB (R102, row PREFIX CB): it fetches the second opcode and runs what that selects. Not an instruction of its own. -/
  | prefixCb
  /-- `HALT` (R352). -/
  | halt
  /-- `STOP` with its second byte, which is fetched and ignored (R354). -/
  | stop (pad : Byte)
  /-- `DI` (R355). -/
  | di
  /-- `EI` (R356). -/
  | ei
  /-- The undefined first byte 0xD3 (R109, R357). -/
  | illegalD3
  /-- The undefined first byte 0xDB (R109, R357). -/
  | illegalDB
  /-- The undefined first byte 0xDD (R109, R357). -/
  | illegalDD
  /-- The undefined first byte 0xE3 (R109, R357). -/
  | illegalE3
  /-- The undefined first byte 0xE4 (R109, R357). -/
  | illegalE4
  /-- The undefined first byte 0xEB (R109, R357). -/
  | illegalEB
  /-- The undefined first byte 0xEC (R109, R357). -/
  | illegalEC
  /-- The undefined first byte 0xED (R109, R357). -/
  | illegalED
  /-- The undefined first byte 0xF4 (R109, R357). -/
  | illegalF4
  /-- The undefined first byte 0xFC (R109, R357). -/
  | illegalFC
  /-- The undefined first byte 0xFD (R109, R357). -/
  | illegalFD
  deriving DecidableEq, Repr

end Sys2Proof
end

