-- ==== Sys2Proof/WellFormed.lean ====
section
/-! DEFINITION. Which instruction terms the encoding can express. Registers, register pairs and
conditions are types whose every value is legal (30_encoding.md rule R110); the two indexes that are
numbers, the bit index `b` and the restart index `t`, are 3-bit fields (R108). -/

namespace Sys2Proof

/-- The well-formed instructions: a bit index and a restart index are below 8 (R108). -/
def Instr.wf : Instr → Bool
  | .bitBR b _ => decide (b < 8)
  | .bitBHl b => decide (b < 8)
  | .resBR b _ => decide (b < 8)
  | .resBHl b => decide (b < 8)
  | .setBR b _ => decide (b < 8)
  | .setBHl b => decide (b < 8)
  | .rstT t => decide (t < 8)
  | .ldRR _ _ | .ldRHl _ | .ldHlR _ | .ldRD8 _ _ | .ldHlD8 _ | .ldABc | .ldADe | .ldBcA | .ldDeA
  | .ldAA16 _ | .ldA16A _ | .ldhAA8 _ | .ldhA8A _ | .ldAC | .ldCA | .ldAHlInc | .ldAHlDec
  | .ldHlIncA | .ldHlDecA | .ldRpD16 _ _ | .ldA16Sp _ | .ldSpHl | .ldHlSpE _ | .push _ | .pop _
  | .pushAf | .popAf | .addAR _ | .addAHl | .addAD8 _ | .adcAR _ | .adcAHl | .adcAD8 _ | .subR _
  | .subHl | .subD8 _ | .sbcAR _ | .sbcAHl | .sbcAD8 _ | .andR _ | .andHl | .andD8 _ | .xorR _
  | .xorHl | .xorD8 _ | .orR _ | .orHl | .orD8 _ | .cpR _ | .cpHl | .cpD8 _ | .incR _ | .incHl
  | .decR _ | .decHl | .daa | .cpl | .scf | .ccf | .incRp _ | .decRp _ | .addHlRp _ | .addSpE _
  | .rlca | .rrca | .rla | .rra | .rlcR _ | .rlcHl | .rrcR _ | .rrcHl | .rlR _ | .rlHl | .rrR _
  | .rrHl | .slaR _ | .slaHl | .sraR _ | .sraHl | .swapR _ | .swapHl | .srlR _ | .srlHl
  | .jpA16 _ | .jpCcA16 _ _ | .jpHl | .jrE _ | .jrCcE _ _ | .callA16 _ | .callCcA16 _ _ | .ret
  | .reti | .retCc _ | .nop | .prefixCb | .halt | .stop _ | .di | .ei | .illegalD3 | .illegalDB
  | .illegalDD | .illegalE3 | .illegalE4 | .illegalEB | .illegalEC | .illegalED | .illegalF4
  | .illegalFC | .illegalFD => true

end Sys2Proof
end

