-- ==== Sys2Proof/Decode.lean ====
section
/-! DEFINITION. The encoding of 30_encoding.md: the decoder (total on the two opcode tables, rules R109
and R111 to R115; it rejects, by name, only a byte list that ends before the instruction does), the
encoder written from the encoding lines of the instruction rules, and the reading of one table word.
An instruction is 1, 2 or 3 bytes, byte 1 at the lowest address (R100). -/

namespace Sys2Proof

/-! ## Fields and byte order -/

/-- `hi:lo`, the little-endian reading of a 16-bit immediate fetched low byte first (R103, R84). -/
def wordOf (hi lo : Byte) : Word := hi ++ lo

/-- `v[7:0]` (R11). -/
def lowByte (v : Word) : Byte := v.setWidth 8

/-- `v[15:8]` (R11). -/
def highByte (v : Word) : Byte := (v >>> 8).setWidth 8

/-- `sext_16(v)` of R12: the byte sign-extended to 16 bits. -/
def signExtend16 (v : Byte) : Word := v.signExtend 16

/-- `x = op[7:6]`, as a number (30_encoding.md section 4). -/
def fieldX (op : Byte) : Nat := op.toNat / 64

/-- `y = op[5:3]`, as a number. -/
def fieldY (op : Byte) : Nat := op.toNat / 8 % 8

/-- `z = op[2:0]`, as a number. -/
def fieldZ (op : Byte) : Nat := op.toNat % 8

/-- The field value of an 8-bit register operand (R104). -/
def Reg8.code : Reg8 → Nat
  | .b => 0 | .c => 1 | .d => 2 | .e => 3 | .h => 4 | .l => 5 | .a => 7

/-- The register an `R8` field selects; 6 selects the byte at HL and no register (R104). -/
def Reg8.ofCode : Nat → Option Reg8
  | 0 => some .b | 1 => some .c | 2 => some .d | 3 => some .e
  | 4 => some .h | 5 => some .l | 6 => none | _ => some .a

/-- The field value of an `RP` operand (R105). -/
def Rp.code : Rp → Nat
  | .bc => 0 | .de => 1 | .hl => 2 | .sp => 3

/-- The pair an `RP` field selects (R105). -/
def Rp.ofCode : Nat → Rp
  | 0 => .bc | 1 => .de | 2 => .hl | _ => .sp

/-- The field value of an `RP2` operand (R106). -/
def Rp2.code : Rp2 → Nat
  | .bc => 0 | .de => 1 | .hl => 2

/-- The pair an `RP2` field selects; 3 selects AF, whose rows are separate (R106). -/
def Rp2.ofCode : Nat → Option Rp2
  | 0 => some .bc | 1 => some .de | 2 => some .hl | _ => none

/-- The field value of a condition code (R107). -/
def Cond.code : Cond → Nat
  | .nz => 0 | .z => 1 | .nc => 2 | .c => 3

/-- The condition a `CC` field selects (R107). -/
def Cond.ofCode : Nat → Cond
  | 0 => .nz | 1 => .z | 2 => .nc | _ => .c

/-! ## The decoder -/

/-- Block x = 0 of the base table (R111); `n1` and `n2` are the bytes after the opcode. -/
def decodeBlock0 (y z : Nat) (n1 n2 : Byte) : Instr :=
  match z with
  | 0 =>
    match y with
    | 0 => .nop
    | 1 => .ldA16Sp (wordOf n2 n1)
    | 2 => .stop n1
    | 3 => .jrE n1
    | y => .jrCcE (Cond.ofCode (y - 4)) n1
  | 1 =>
    if y % 2 = 0 then .ldRpD16 (Rp.ofCode (y / 2)) (wordOf n2 n1)
    else .addHlRp (Rp.ofCode (y / 2))
  | 2 =>
    match y with
    | 0 => .ldBcA
    | 1 => .ldABc
    | 2 => .ldDeA
    | 3 => .ldADe
    | 4 => .ldHlIncA
    | 5 => .ldAHlInc
    | 6 => .ldHlDecA
    | _ => .ldAHlDec
  | 3 => if y % 2 = 0 then .incRp (Rp.ofCode (y / 2)) else .decRp (Rp.ofCode (y / 2))
  | 4 =>
    match Reg8.ofCode y with
    | some r => .incR r
    | none => .incHl
  | 5 =>
    match Reg8.ofCode y with
    | some r => .decR r
    | none => .decHl
  | 6 =>
    match Reg8.ofCode y with
    | some r => .ldRD8 r n1
    | none => .ldHlD8 n1
  | _ =>
    match y with
    | 0 => .rlca
    | 1 => .rrca
    | 2 => .rla
    | 3 => .rra
    | 4 => .daa
    | 5 => .cpl
    | 6 => .scf
    | _ => .ccf

/-- Block x = 1 of the base table (R112): the register loads, with HALT in the (HL),(HL) slot. -/
def decodeBlock1 (y z : Nat) : Instr :=
  match Reg8.ofCode y, Reg8.ofCode z with
  | some dst, some src => .ldRR dst src
  | some dst, none => .ldRHl dst
  | none, some src => .ldHlR src
  | none, none => .halt

/-- Block x = 2 of the base table (R113): `alu[y] A,R8[z]`, with the `alu` numbering of R108. -/
def decodeBlock2 (y z : Nat) : Instr :=
  match Reg8.ofCode z with
  | some r =>
    match y with
    | 0 => .addAR r
    | 1 => .adcAR r
    | 2 => .subR r
    | 3 => .sbcAR r
    | 4 => .andR r
    | 5 => .xorR r
    | 6 => .orR r
    | _ => .cpR r
  | none =>
    match y with
    | 0 => .addAHl
    | 1 => .adcAHl
    | 2 => .subHl
    | 3 => .sbcAHl
    | 4 => .andHl
    | 5 => .xorHl
    | 6 => .orHl
    | _ => .cpHl

/-- Block x = 3 of the base table (R114), the undefined bytes of R109 and the 0xCB entry included. -/
def decodeBlock3 (y z : Nat) (n1 n2 : Byte) : Instr :=
  match z with
  | 0 =>
    match y with
    | 4 => .ldhA8A n1
    | 5 => .addSpE n1
    | 6 => .ldhAA8 n1
    | 7 => .ldHlSpE n1
    | y => .retCc (Cond.ofCode y)
  | 1 =>
    match y with
    | 1 => .ret
    | 3 => .reti
    | 5 => .jpHl
    | 7 => .ldSpHl
    | y =>
      match Rp2.ofCode (y / 2) with
      | some rp => .pop rp
      | none => .popAf
  | 2 =>
    match y with
    | 4 => .ldCA
    | 5 => .ldA16A (wordOf n2 n1)
    | 6 => .ldAC
    | 7 => .ldAA16 (wordOf n2 n1)
    | y => .jpCcA16 (Cond.ofCode y) (wordOf n2 n1)
  | 3 =>
    match y with
    | 0 => .jpA16 (wordOf n2 n1)
    | 1 => .prefixCb
    | 2 => .illegalD3
    | 3 => .illegalDB
    | 4 => .illegalE3
    | 5 => .illegalEB
    | 6 => .di
    | _ => .ei
  | 4 =>
    match y with
    | 4 => .illegalE4
    | 5 => .illegalEC
    | 6 => .illegalF4
    | 7 => .illegalFC
    | y => .callCcA16 (Cond.ofCode y) (wordOf n2 n1)
  | 5 =>
    match y with
    | 1 => .callA16 (wordOf n2 n1)
    | 3 => .illegalDD
    | 5 => .illegalED
    | 7 => .illegalFD
    | y =>
      match Rp2.ofCode (y / 2) with
      | some rp => .push rp
      | none => .pushAf
  | 6 =>
    match y with
    | 0 => .addAD8 n1
    | 1 => .adcAD8 n1
    | 2 => .subD8 n1
    | 3 => .sbcAD8 n1
    | 4 => .andD8 n1
    | 5 => .xorD8 n1
    | 6 => .orD8 n1
    | _ => .cpD8 n1
  | _ => .rstT y

/-- The base table (R102, R111 to R114): every first byte selects exactly one entry (R109). The
immediate bytes an entry does not have are not looked at. -/
def decodeBase (op n1 n2 : Byte) : Instr :=
  match fieldX op with
  | 0 => decodeBlock0 (fieldY op) (fieldZ op) n1 n2
  | 1 => decodeBlock1 (fieldY op) (fieldZ op)
  | 2 => decodeBlock2 (fieldY op) (fieldZ op)
  | _ => decodeBlock3 (fieldY op) (fieldZ op) n1 n2

/-- The secondary table (R115): every second byte selects exactly one instruction (R109). -/
def decodeCb (op2 : Byte) : Instr :=
  match fieldX op2, Reg8.ofCode (fieldZ op2) with
  | 0, some r =>
    match fieldY op2 with
    | 0 => .rlcR r
    | 1 => .rrcR r
    | 2 => .rlR r
    | 3 => .rrR r
    | 4 => .slaR r
    | 5 => .sraR r
    | 6 => .swapR r
    | _ => .srlR r
  | 0, none =>
    match fieldY op2 with
    | 0 => .rlcHl
    | 1 => .rrcHl
    | 2 => .rlHl
    | 3 => .rrHl
    | 4 => .slaHl
    | 5 => .sraHl
    | 6 => .swapHl
    | _ => .srlHl
  | 1, some r => .bitBR (fieldY op2) r
  | 1, none => .bitBHl (fieldY op2)
  | 2, some r => .resBR (fieldY op2) r
  | 2, none => .resBHl (fieldY op2)
  | _, some r => .setBR (fieldY op2) r
  | _, none => .setBHl (fieldY op2)

/-- The prefix opcode (R102). -/
def prefixByte : Byte := 0xCB

/-- How many immediate bytes follow a first byte: the formats OP, OP_D8 and OP_D16 of R100. The
0xCB entry is counted as having none: its second byte is an opcode, not an immediate (R102). -/
def immediateCount (op : Byte) : Nat :=
  match fieldX op, fieldZ op with
  | 0, 0 =>
    match fieldY op with
    | 0 => 0
    | 1 => 2
    | _ => 1
  | 0, 1 => if fieldY op % 2 = 0 then 2 else 0
  | 0, 6 => 1
  | 3, 0 => if fieldY op < 4 then 0 else 1
  | 3, 2 => if fieldY op < 4 ∨ fieldY op = 5 ∨ fieldY op = 7 then 2 else 0
  | 3, 3 => if fieldY op = 0 then 2 else 0
  | 3, 4 => if fieldY op < 4 then 2 else 0
  | 3, 5 => if fieldY op = 1 then 2 else 0
  | 3, 6 => 1
  | _, _ => 0

/-- Why a byte list is no instruction: it holds none, or it ends before the bytes its first byte
asks for (R100). Every complete byte sequence decodes (R109). -/
inductive DecodeError where
  | noBytes
  | missingImmediate (op : Byte) (wanted : Nat)
  deriving DecidableEq, Repr

/-- The decoder on a byte list, lowest address first: the instruction and the bytes after it. After
0xCB the next byte is decoded by the secondary table; 0xCB alone is the base table's entry for it. -/
def decode : List Byte → Except DecodeError (Instr × List Byte)
  | [] => .error .noBytes
  | op :: rest =>
    if op = prefixByte then
      match rest with
      | [] => .ok (.prefixCb, [])
      | op2 :: rest => .ok (decodeCb op2, rest)
    else
      match immediateCount op, rest with
      | 0, rest => .ok (decodeBase op 0 0, rest)
      | 1, n1 :: rest => .ok (decodeBase op n1 0, rest)
      | 2, n1 :: n2 :: rest => .ok (decodeBase op n1 n2, rest)
      | n, _ => .error (.missingImmediate op n)

/-! ## The encoder -/

/-- An opcode byte from its number. -/
def opcode (n : Nat) : Byte := BitVec.ofNat 8 n

/-- One opcode byte. -/
def encodeOp (n : Nat) : List Byte := [opcode n]

/-- An opcode byte and an 8-bit immediate (format OP_D8). -/
def encodeD8 (n : Nat) (v : Byte) : List Byte := [opcode n, v]

/-- An opcode byte and a 16-bit immediate, low byte first (format OP_D16). -/
def encodeD16 (n : Nat) (v : Word) : List Byte := [opcode n, lowByte v, highByte v]

/-- The prefix byte and a second opcode (format CB). -/
def encodeCb (n : Nat) : List Byte := [prefixByte, opcode n]

/-- The bytes of an instruction, from the *Encoding* line of its rule. -/
def encode : Instr → List Byte
  | .ldRR dst src => encodeOp (0x40 + 8 * dst.code + src.code)
  | .ldRHl r => encodeOp (0x46 + 8 * r.code)
  | .ldHlR r => encodeOp (0x70 + r.code)
  | .ldRD8 r v => encodeD8 (0x06 + 8 * r.code) v
  | .ldHlD8 v => encodeD8 0x36 v
  | .ldABc => encodeOp 0x0A
  | .ldADe => encodeOp 0x1A
  | .ldBcA => encodeOp 0x02
  | .ldDeA => encodeOp 0x12
  | .ldAA16 a => encodeD16 0xFA a
  | .ldA16A a => encodeD16 0xEA a
  | .ldhAA8 n => encodeD8 0xF0 n
  | .ldhA8A n => encodeD8 0xE0 n
  | .ldAC => encodeOp 0xF2
  | .ldCA => encodeOp 0xE2
  | .ldAHlInc => encodeOp 0x2A
  | .ldAHlDec => encodeOp 0x3A
  | .ldHlIncA => encodeOp 0x22
  | .ldHlDecA => encodeOp 0x32
  | .ldRpD16 rp v => encodeD16 (0x01 + 16 * rp.code) v
  | .ldA16Sp a => encodeD16 0x08 a
  | .ldSpHl => encodeOp 0xF9
  | .ldHlSpE e => encodeD8 0xF8 e
  | .push rp => encodeOp (0xC5 + 16 * rp.code)
  | .pop rp => encodeOp (0xC1 + 16 * rp.code)
  | .pushAf => encodeOp 0xF5
  | .popAf => encodeOp 0xF1
  | .addAR r => encodeOp (0x80 + r.code)
  | .addAHl => encodeOp 0x86
  | .addAD8 v => encodeD8 0xC6 v
  | .adcAR r => encodeOp (0x88 + r.code)
  | .adcAHl => encodeOp 0x8E
  | .adcAD8 v => encodeD8 0xCE v
  | .subR r => encodeOp (0x90 + r.code)
  | .subHl => encodeOp 0x96
  | .subD8 v => encodeD8 0xD6 v
  | .sbcAR r => encodeOp (0x98 + r.code)
  | .sbcAHl => encodeOp 0x9E
  | .sbcAD8 v => encodeD8 0xDE v
  | .andR r => encodeOp (0xA0 + r.code)
  | .andHl => encodeOp 0xA6
  | .andD8 v => encodeD8 0xE6 v
  | .xorR r => encodeOp (0xA8 + r.code)
  | .xorHl => encodeOp 0xAE
  | .xorD8 v => encodeD8 0xEE v
  | .orR r => encodeOp (0xB0 + r.code)
  | .orHl => encodeOp 0xB6
  | .orD8 v => encodeD8 0xF6 v
  | .cpR r => encodeOp (0xB8 + r.code)
  | .cpHl => encodeOp 0xBE
  | .cpD8 v => encodeD8 0xFE v
  | .incR r => encodeOp (0x04 + 8 * r.code)
  | .incHl => encodeOp 0x34
  | .decR r => encodeOp (0x05 + 8 * r.code)
  | .decHl => encodeOp 0x35
  | .daa => encodeOp 0x27
  | .cpl => encodeOp 0x2F
  | .scf => encodeOp 0x37
  | .ccf => encodeOp 0x3F
  | .incRp rp => encodeOp (0x03 + 16 * rp.code)
  | .decRp rp => encodeOp (0x0B + 16 * rp.code)
  | .addHlRp rp => encodeOp (0x09 + 16 * rp.code)
  | .addSpE e => encodeD8 0xE8 e
  | .rlca => encodeOp 0x07
  | .rrca => encodeOp 0x0F
  | .rla => encodeOp 0x17
  | .rra => encodeOp 0x1F
  | .rlcR r => encodeCb (0x00 + r.code)
  | .rlcHl => encodeCb 0x06
  | .rrcR r => encodeCb (0x08 + r.code)
  | .rrcHl => encodeCb 0x0E
  | .rlR r => encodeCb (0x10 + r.code)
  | .rlHl => encodeCb 0x16
  | .rrR r => encodeCb (0x18 + r.code)
  | .rrHl => encodeCb 0x1E
  | .slaR r => encodeCb (0x20 + r.code)
  | .slaHl => encodeCb 0x26
  | .sraR r => encodeCb (0x28 + r.code)
  | .sraHl => encodeCb 0x2E
  | .swapR r => encodeCb (0x30 + r.code)
  | .swapHl => encodeCb 0x36
  | .srlR r => encodeCb (0x38 + r.code)
  | .srlHl => encodeCb 0x3E
  | .bitBR b r => encodeCb (0x40 + 8 * b + r.code)
  | .bitBHl b => encodeCb (0x46 + 8 * b)
  | .resBR b r => encodeCb (0x80 + 8 * b + r.code)
  | .resBHl b => encodeCb (0x86 + 8 * b)
  | .setBR b r => encodeCb (0xC0 + 8 * b + r.code)
  | .setBHl b => encodeCb (0xC6 + 8 * b)
  | .jpA16 a => encodeD16 0xC3 a
  | .jpCcA16 cc a => encodeD16 (0xC2 + 8 * cc.code) a
  | .jpHl => encodeOp 0xE9
  | .jrE e => encodeD8 0x18 e
  | .jrCcE cc e => encodeD8 (0x20 + 8 * cc.code) e
  | .callA16 a => encodeD16 0xCD a
  | .callCcA16 cc a => encodeD16 (0xC4 + 8 * cc.code) a
  | .ret => encodeOp 0xC9
  | .reti => encodeOp 0xD9
  | .retCc cc => encodeOp (0xC0 + 8 * cc.code)
  | .rstT t => encodeOp (0xC7 + 8 * t)
  | .nop => encodeOp 0x00
  | .prefixCb => encodeOp 0xCB
  | .halt => encodeOp 0x76
  | .stop pad => encodeD8 0x10 pad
  | .di => encodeOp 0xF3
  | .ei => encodeOp 0xFB
  | .illegalD3 => encodeOp 0xD3
  | .illegalDB => encodeOp 0xDB
  | .illegalDD => encodeOp 0xDD
  | .illegalE3 => encodeOp 0xE3
  | .illegalE4 => encodeOp 0xE4
  | .illegalEB => encodeOp 0xEB
  | .illegalEC => encodeOp 0xEC
  | .illegalED => encodeOp 0xED
  | .illegalF4 => encodeOp 0xF4
  | .illegalFC => encodeOp 0xFC
  | .illegalFD => encodeOp 0xFD

/-- The length of an instruction in bytes (R100; `length` in the opcode table). -/
def Instr.length : Instr → Nat
  | .ldRR _ _ | .ldRHl _ | .ldHlR _ | .ldABc | .ldADe | .ldBcA | .ldDeA | .ldAC | .ldCA
  | .ldAHlInc | .ldAHlDec | .ldHlIncA | .ldHlDecA | .ldSpHl | .push _ | .pop _ | .pushAf | .popAf
  | .addAR _ | .addAHl | .adcAR _ | .adcAHl | .subR _ | .subHl | .sbcAR _ | .sbcAHl | .andR _
  | .andHl | .xorR _ | .xorHl | .orR _ | .orHl | .cpR _ | .cpHl | .incR _ | .incHl | .decR _
  | .decHl | .daa | .cpl | .scf | .ccf | .incRp _ | .decRp _ | .addHlRp _ | .rlca | .rrca | .rla
  | .rra | .jpHl | .ret | .reti | .retCc _ | .rstT _ | .nop | .prefixCb | .halt | .di | .ei
  | .illegalD3 | .illegalDB | .illegalDD | .illegalE3 | .illegalE4 | .illegalEB | .illegalEC
  | .illegalED | .illegalF4 | .illegalFC | .illegalFD => 1
  | .ldRD8 _ _ | .ldHlD8 _ | .ldhAA8 _ | .ldhA8A _ | .ldHlSpE _ | .addAD8 _ | .adcAD8 _
  | .subD8 _ | .sbcAD8 _ | .andD8 _ | .xorD8 _ | .orD8 _ | .cpD8 _ | .addSpE _ | .rlcR _ | .rlcHl
  | .rrcR _ | .rrcHl | .rlR _ | .rlHl | .rrR _ | .rrHl | .slaR _ | .slaHl | .sraR _ | .sraHl
  | .swapR _ | .swapHl | .srlR _ | .srlHl | .bitBR _ _ | .bitBHl _ | .resBR _ _ | .resBHl _
  | .setBR _ _ | .setBHl _ | .jrE _ | .jrCcE _ _ | .stop _ => 2
  | .ldAA16 _ | .ldA16A _ | .ldRpD16 _ _ | .ldA16Sp _ | .jpA16 _ | .jpCcA16 _ _ | .callA16 _
  | .callCcA16 _ _ => 3

/-! ## One word of the opcode table -/

/-- The bytes of a table word: bit 0 of `w` is the least significant bit of the first byte, and the
second byte is bits 15..8. Bytes above `nbits` are 0 (operand bytes of zeros), up to the longest
instruction, three bytes; the one-byte row PREFIX CB, whose second byte is no operand but an opcode
of other rows, is the byte 0xCB alone. -/
def tableBytes (nbits w : Nat) : List Byte :=
  let v := w % 2 ^ nbits
  if nbits ≤ 8 ∧ v = 0xCB then [prefixByte]
  else [BitVec.ofNat 8 v, BitVec.ofNat 8 (v / 256), BitVec.ofNat 8 (v / 65536)]

/-- What the decoder reads from a table word; `none` where it refuses. -/
def decodeTableWord (nbits w : Nat) : Option Instr :=
  match decode (tableBytes nbits w) with
  | .ok (i, _) => some i
  | .error _ => none

end Sys2Proof
end

