-- ==== Sys2Proof/Machine/Operands.lean ====
section
/-! DEFINITION. The register operands: halves and pairs over one storage (10_state.md rules R21 to R24),
F as a byte (R25, R26), the operand fields `R8`, `RP`, `RP2` and `CC` (30_encoding.md rules R104 to
R107), and the address modes that are not a register's value (40_load8.md rule R140). -/

namespace Sys2Proof.Machine

/-! ## Pairs -/

/-- BC = B:C (R22). -/
def State.bc (s : State) : Word := wordOf s.b s.c

/-- DE = D:E (R22). -/
def State.de (s : State) : Word := wordOf s.d s.e

/-- HL = H:L (R22). -/
def State.hl (s : State) : Word := wordOf s.h s.l

/-- `BC <- v`: `B <- v[15:8]`, `C <- v[7:0]` (R22). -/
def State.setBc (s : State) (v : Word) : State := { s with b := highByte v, c := lowByte v }

/-- `DE <- v` (R22). -/
def State.setDe (s : State) (v : Word) : State := { s with d := highByte v, e := lowByte v }

/-- `HL <- v` (R22). -/
def State.setHl (s : State) (v : Word) : State := { s with h := highByte v, l := lowByte v }

/-! ## F as a byte -/

/-- One flag at its bit position. -/
def flagBit (v : Bool) (k : Nat) : Byte := if v then 1#8 <<< k else 0#8

/-- F as a byte, `fZ:fN:fH:fC:0000` (R25, R26, R178). -/
def Flags.toByte (f : Flags) : Byte :=
  flagBit f.z 7 ||| flagBit f.n 6 ||| flagBit f.h 5 ||| flagBit f.c 4

/-- The flags of a byte; bits 3:0 are discarded (R179, D4). -/
def Flags.ofByte (v : Byte) : Flags :=
  ⟨v.getLsbD 7, v.getLsbD 6, v.getLsbD 5, v.getLsbD 4⟩

/-- AF = A:F (R22). -/
def State.af (s : State) : Word := wordOf s.a s.f.toByte

/-- `A <- v[15:8]; F <- v[7:0] & 0xF0` (R179). -/
def State.setAf (s : State) (v : Word) : State :=
  { s with a := highByte v, f := Flags.ofByte (lowByte v) }

/-! ## Operand fields -/

/-- `R8[r]` for a register (R104). -/
def State.reg (s : State) : Reg8 → Byte
  | .b => s.b | .c => s.c | .d => s.d | .e => s.e | .h => s.h | .l => s.l | .a => s.a

/-- `R8[r] <- v` for a register (R104). -/
def State.setReg (s : State) (r : Reg8) (v : Byte) : State :=
  match r with
  | .b => { s with b := v }
  | .c => { s with c := v }
  | .d => { s with d := v }
  | .e => { s with e := v }
  | .h => { s with h := v }
  | .l => { s with l := v }
  | .a => { s with a := v }

/-- `RP[rp]` (R105). -/
def State.pair (s : State) : Rp → Word
  | .bc => s.bc | .de => s.de | .hl => s.hl | .sp => s.sp

/-- `RP[rp] <- v` (R105). -/
def State.setPair (s : State) (rp : Rp) (v : Word) : State :=
  match rp with
  | .bc => s.setBc v
  | .de => s.setDe v
  | .hl => s.setHl v
  | .sp => { s with sp := v }

/-- `RP2[rp]` other than AF (R106). -/
def State.stackPair (s : State) : Rp2 → Word
  | .bc => s.bc | .de => s.de | .hl => s.hl

/-- `RP2[rp] <- v` other than AF (R106). -/
def State.setStackPair (s : State) (rp : Rp2) (v : Word) : State :=
  match rp with
  | .bc => s.setBc v
  | .de => s.setDe v
  | .hl => s.setHl v

/-- `cond(cc)` (R107). -/
def State.cond (s : State) : Cond → Bool
  | .nz => !s.f.z
  | .z => s.f.z
  | .nc => !s.f.c
  | .c => s.f.c

/-! ## Addresses -/

/-- The high-page address `0xFF00 + n` (R140 modes 6 and 7). -/
def highPage (n : Byte) : Word := 0xFF00#16 + n.setWidth 16

/-- The PC-relative target `PC + sext_16(e)` (R140 mode 9, R324). -/
def State.relative (s : State) (e : Byte) : Word := s.pc + signExtend16 e

/-- The RST target `8*t` (R331). -/
def restartTarget (t : Nat) : Word := BitVec.ofNat 16 (8 * t)

end Sys2Proof.Machine
end

