-- ==== Sys2Proof/Machine/Timing.lean ====
section
/-! DEFINITION. The M-cycle costs as one replaceable table (70_reset_and_hazards.md rule R462: "A model
should carry them as data (one table)"). The costs are the SM83's (D29). -/

namespace Sys2Proof.Machine

/-- The cost of an instruction, of a conditional one when taken (R462). The base-table entry 0xCB and
the undefined bytes add nothing: the cost of a 0xCB instruction is its own row's, and an undefined byte
faults before any `tick`. -/
def cycles : Instr → Nat
  | .ldRR _ _ | .addAR _ | .adcAR _ | .subR _ | .sbcAR _ | .andR _ | .xorR _ | .orR _ | .cpR _
  | .incR _ | .decR _ | .daa | .cpl | .scf | .ccf | .rlca | .rrca | .rla | .rra | .jpHl | .nop
  | .halt | .stop _ | .di | .ei => 1
  | .ldRHl _ | .ldHlR _ | .ldRD8 _ _ | .ldABc | .ldADe | .ldBcA | .ldDeA | .ldAC | .ldCA
  | .ldAHlInc | .ldAHlDec | .ldHlIncA | .ldHlDecA | .ldSpHl | .addAHl | .addAD8 _ | .adcAHl
  | .adcAD8 _ | .subHl | .subD8 _ | .sbcAHl | .sbcAD8 _ | .andHl | .andD8 _ | .xorHl | .xorD8 _
  | .orHl | .orD8 _ | .cpHl | .cpD8 _ | .incRp _ | .decRp _ | .addHlRp _ | .rlcR _ | .rrcR _
  | .rlR _ | .rrR _ | .slaR _ | .sraR _ | .swapR _ | .srlR _ | .bitBR _ _ | .resBR _ _
  | .setBR _ _ => 2
  | .ldHlD8 _ | .ldhAA8 _ | .ldhA8A _ | .ldRpD16 _ _ | .ldHlSpE _ | .pop _ | .popAf | .incHl
  | .decHl | .bitBHl _ | .jrE _ | .jrCcE _ _ => 3
  | .ldAA16 _ | .ldA16A _ | .push _ | .pushAf | .addSpE _ | .rlcHl | .rrcHl | .rlHl | .rrHl
  | .slaHl | .sraHl | .swapHl | .srlHl | .resBHl _ | .setBHl _ | .jpA16 _ | .jpCcA16 _ _ | .ret
  | .reti | .rstT _ => 4
  | .ldA16Sp _ | .retCc _ => 5
  | .callA16 _ | .callCcA16 _ _ => 6
  | .prefixCb | .illegalD3 | .illegalDB | .illegalDD | .illegalE3 | .illegalE4 | .illegalEB
  | .illegalEC | .illegalED | .illegalF4 | .illegalFC | .illegalFD => 0

/-- The cost of a conditional jump when it is not taken (R322). -/
def cyclesJpNotTaken : Nat := 3

/-- The cost of a conditional relative jump when it is not taken (R325). -/
def cyclesJrNotTaken : Nat := 2

/-- The cost of a conditional call when it is not taken (R327). -/
def cyclesCallNotTaken : Nat := 3

/-- The cost of a conditional return when it is not taken (R330). -/
def cyclesRetNotTaken : Nat := 2

/-- The cost of Interrupt-Service (R413), the document's own number. -/
def cyclesInterrupt : Nat := 5

/-- The cost of an idle step of a halted CPU (R353). -/
def cyclesIdle : Nat := 1

end Sys2Proof.Machine
end

