-- ==== Sys2Proof/Machine/Ops.lean ====
section
/-! DEFINITION. The shared operations over memory, bus, stack, lock and interrupt controller, the fault
latch, and the one interrupt entry with the return from it (20_memory.md, 41_load16_stack.md rules R176
and R177, 60_exceptions.md). An operation answers `Res`: a value and the next state, or the state in
which a `raise` ended the step. -/

namespace Sys2Proof.Machine

/-! ## Results and the fault latch -/

/-- What an operation answers: `ok` a value in a state, or `raised`, the state left by a `raise` (R420:
the effects of the earlier lines stay, the later lines do not happen). -/
inductive Res (α : Type) where
  | ok (v : α) (s : State)
  | raised (s : State)
  deriving DecidableEq, Repr

/-- Do `x`, then `k`; a raise ends the sequence (R420). -/
def Res.bind {α β : Type} (x : Res α) (k : α → State → Res β) : Res β :=
  match x with
  | .ok v s => k v s
  | .raised s => .raised s

/-- The end of a step: both a completed operation and a raised fault are a next state (R420). -/
def Res.finish (x : Res Unit) : Out :=
  match x with
  | .ok _ s => .next s
  | .raised s => .next s

/-- `raise K(info)`: the record goes into the fault latch and nothing else changes (R12, R36, R420). -/
def raise {α : Type} (k : Fault) (s : State) : Res α := .raised { s with fault := some k }

/-- `tick(n)` (R30). -/
def State.tick (s : State) (n : Nat) : State := { s with cyc := s.cyc + BitVec.ofNat 64 n }

/-- The last line of an operation: `tick(n)`, no result. -/
def done (n : Nat) (s : State) : Res Unit := .ok () (s.tick n)

/-! ## Storage -/

/-- What a storage cell that is not listed reads as: 0x00 (MEM0 is unspecified, R41, D23; DESIGN
CHOICE, log entry 2). -/
def unlistedByte : Byte := 0x00

/-- The value at a key of a list of keys and values; `d` is what an unlisted key reads as. -/
def Cells.read {β : Type} (d : β) : List (Nat × β) → Nat → β
  | [], _ => d
  | (k, v) :: m, x => if k = x then v else Cells.read d m x

/-- Store a value at a key, keeping the canonical form: rising keys, no value equal to `d`. -/
def Cells.write {β : Type} [DecidableEq β] (d : β) : List (Nat × β) → Nat → β → List (Nat × β)
  | [], x, w => if w = d then [] else [(x, w)]
  | (k, v) :: m, x, w =>
    if x < k then
      if w = d then (k, v) :: m else (x, w) :: (k, v) :: m
    else if x = k then
      if w = d then m else (x, w) :: m
    else (k, v) :: Cells.write d m x w

/-- Every key in the list is above `lo`, rising, and no value is `d`. -/
def Cells.wfAbove {β : Type} [DecidableEq β] (d : β) (lo : Nat) : List (Nat × β) → Bool
  | [] => true
  | (k, v) :: m => decide (lo < k) && decide (v ≠ d) && Cells.wfAbove d k m

/-- The canonical form. -/
def Cells.wf {β : Type} [DecidableEq β] (d : β) : List (Nat × β) → Bool
  | [] => true
  | (k, v) :: m => decide (v ≠ d) && Cells.wfAbove d k m

/-- The byte in a storage cell. -/
def Memory.read (m : Memory) (k : Nat) : Byte := Cells.read unlistedByte m k

/-- Store a byte in a cell. -/
def Memory.write (m : Memory) (k : Nat) (v : Byte) : Memory := Cells.write unlistedByte m k v

/-- The canonical form of the storage. -/
def Memory.wf (m : Memory) : Bool := Cells.wf unlistedByte m

/-- The state of a device owner; 0 where none is listed. -/
def DeviceStates.read (m : DeviceStates) (k : Nat) : Nat := Cells.read 0 m k

/-- Set the state of a device owner. -/
def DeviceStates.write (m : DeviceStates) (k q : Nat) : DeviceStates := Cells.write 0 m k q

/-- The canonical form of the device states. -/
def DeviceStates.wf (m : DeviceStates) : Bool := Cells.wf 0 m

/-! ## The bus -/

/-- IF_ADDR (R33, R415, D13). -/
def ifAddr : Word := 0xFF0F

/-- IE_ADDR (R32, R415, D13). -/
def ieAddr : Word := 0xFFFF

/-- A place a bus access can name: a storage cell, one of the two interrupt registers, or the state of a
device, which all addresses of its connections share. -/
inductive Place where
  | cell (k : Nat)
  | ifReg
  | ieReg
  | device (o : Owner)
  deriving DecidableEq, Repr

/-- An owner's number. -/
def Owner.code : Owner → Nat
  | .cart => 0
  | .wram => 1
  | .hram => 2
  | .intc => 3
  | .device n => n + 4

/-- The cell number of the first byte of an owner's array: the arrays of different owners never
overlap (R62: the owner identifies the storage). -/
def Owner.base (o : Owner) : Nat := 0x10000 * o.code

/-- The connection claims every address between its bounds, both included (R62, R67). -/
def Connection.claims (c : Connection) (a : Word) : Bool :=
  decide (c.startAddr ≤ a) && decide (a ≤ c.endAddr)

/-- The address decoder: the first registered connection that claims the address (R64, R67). -/
def decodeAddr (bus : List Connection) (a : Word) : Option Connection :=
  bus.find? (·.claims a)

/-- The place the connection's entry points act on for the full bus address `a`: byte
`a - start_addr` of the owner's array (R81 to R83), so two connections with one owner share storage
(R65); an interrupt register, for its own address only (R415); a failing status (R71); or the owner's
device state. -/
def Connection.place (c : Connection) (a : Word) : Except Fault Place :=
  match c.port with
  | .rom | .ram | .clearOnRead => .ok (.cell (c.owner.base + (a - c.startAddr).toNat))
  | .ifReg => if a = ifAddr then .ok .ifReg else .error (.addressMismatch a)
  | .ieReg => if a = ieAddr then .ok .ieReg else .error (.addressMismatch a)
  | .failing => .error (.deviceFailure a)
  | .program _ => .ok (.device c.owner)

/-- The internal state of an owner's device (R72). -/
def State.device (s : State) (o : Owner) : Nat := s.devices.read o.code

/-- Set it; the state it is in already changes nothing. -/
def State.setDevice (s : State) (o : Owner) (q : Nat) : State :=
  if s.device o = q then s else { s with devices := s.devices.write o.code q }

/-- The byte at a place; of a device, the low byte of its state. -/
def State.at (s : State) : Place → Byte
  | .cell k => s.mem.read k
  | .ifReg => s.ifl
  | .ieReg => s.ie
  | .device o => BitVec.ofNat 8 (s.device o)

/-- What a place holds, as a number: the byte, or the whole state of a device. -/
def State.content (s : State) : Place → Nat
  | .cell k => (s.mem.read k).toNat
  | .ifReg => s.ifl.toNat
  | .ieReg => s.ie.toNat
  | .device o => s.device o

/-- Store a byte at a place. -/
def State.put (s : State) (p : Place) (v : Byte) : State :=
  match p with
  | .cell k => { s with mem := s.mem.write k v }
  | .ifReg => { s with ifl := v }
  | .ieReg => { s with ie := v }
  | .device o => s.setDevice o v.toNat

/-- A call of a platform's own entry point: the owner's state changes as the entry point says, and a
failing status raises (R71, R72). -/
def Connection.run (c : Connection) (e : EntryPoint) (a : Word) (v : Byte) (s : State) : Res Byte :=
  let q := s.device c.owner
  let t := s.setDevice c.owner (e.after q a v)
  if e.failing q a v then raise (.deviceFailure a) t else .ok (e.reply q a v) t

/-- The read entry point of a connection (R62, R72). -/
def Connection.read (c : Connection) (a : Word) (s : State) : Res Byte :=
  match c.port with
  | .program p => c.run p.read a 0x00 s
  | .rom | .ram | .ifReg | .ieReg | .clearOnRead | .failing =>
    match c.place a with
    | .error k => raise k s
    | .ok p => .ok (s.at p) (if c.port = .clearOnRead then s.put p 0x00 else s)

/-- The write entry point of a connection (R62); a write to ROM changes nothing (R83). -/
def Connection.write (c : Connection) (a : Word) (v : Byte) (s : State) : Res Unit :=
  match c.port with
  | .program p => (c.run p.write a v s).bind fun _ s => .ok () s
  | .rom | .ram | .ifReg | .ieReg | .clearOnRead | .failing =>
    match c.place a with
    | .error k => raise k s
    | .ok p => .ok () (if c.port = .rom then s else s.put p v)

/-- `BusRead` (R68). The bus does not look at the lock (R75), so the master is no argument here. -/
def busRead (a : Word) (s : State) : Res Byte :=
  match decodeAddr s.bus a with
  | none => raise (.unmappedAddress a .read) s
  | some c => c.read a s

/-- `BusWrite` (R69). -/
def busWrite (a : Word) (v : Byte) (s : State) : Res Unit :=
  match decodeAddr s.bus a with
  | none => raise (.unmappedAddress a .write) s
  | some c => c.write a v s

/-- The place an address names now, if it is mapped and its device does not fail. Two addresses with
one place are one byte (R65, R81). -/
def State.placeOf (s : State) (a : Word) : Option Place :=
  match decodeAddr s.bus a with
  | none => none
  | some c => (c.place a).toOption

/-- One byte of memory as a bus read would answer it, with no effect: the frame statements' view of memory. -/
def State.peek (s : State) (a : Word) : Option Byte :=
  match busRead a s with
  | .ok v _ => some v
  | .raised _ => none

/-- A read through the connection leaves what it reads as it was (R72): not so of an auto-clearing register
and of a device whose entry point moves it to another state. -/
def Connection.quiet (c : Connection) (a : Word) (s : State) : Bool :=
  match c.port with
  | .clearOnRead => false
  | .program p => decide (p.read.after (s.device c.owner) a 0x00 = s.device c.owner)
  | .rom | .ram | .ifReg | .ieReg | .failing => true

/-- Reading the address leaves what it reads as it was. -/
def State.quietAt (s : State) (a : Word) : Bool :=
  match decodeAddr s.bus a with
  | none => true
  | some c => c.quiet a s

/-- `MemWrite(addr, 2, v)`: low byte first, the second address modulo 2^16 (R12, R84). -/
def memWrite16 (a v : Word) (s : State) : Res Unit :=
  (busWrite a (lowByte v) s).bind fun _ s => busWrite (a + 1) (highByte v) s

/-! ## Fetch and stack -/

/-- `fetch8()`: PC moves past the byte only when the read succeeded (R101). -/
def fetch8 (s : State) : Res Byte :=
  (busRead s.pc s).bind fun v s => .ok v { s with pc := s.pc + 1 }

/-- `SP <- SP - 1; MemWrite(SP, 1, v)`, one half of a push (R176). -/
def pushByte (v : Byte) (s : State) : Res Unit :=
  busWrite (s.sp - 1) v { s with sp := s.sp - 1 }

/-- `push16(v)`: high byte first, SP pre-decremented before each byte (R176). -/
def push16 (v : Word) (s : State) : Res Unit :=
  (pushByte (highByte v) s).bind fun _ s => pushByte (lowByte v) s

/-- `lo <- MemRead(SP, 1); SP <- SP + 1`, one half of a pop (R177). -/
def popByte (s : State) : Res Byte :=
  (busRead s.sp s).bind fun v s => .ok v { s with sp := s.sp + 1 }

/-- `pop16()`: low byte first (R177). -/
def pop16 (s : State) : Res Word :=
  (popByte s).bind fun lo s => (popByte s).bind fun hi s => .ok (wordOf hi lo) s

/-! ## The lock -/

/-- `lock(M)` is enabled when the lock is free or M's own (R74); the same condition allows M bus I/O
(R75) and, for the CPU, a step (R40). -/
def State.lockFreeFor (s : State) (m : Master) : Bool :=
  decide (s.lock = none) || decide (s.lock = some m)

/-- `lock(M)`, when enabled (R74). -/
def State.lockBy (s : State) (m : Master) : State := { s with lock := some m }

/-- `unlock(M)`: frees the lock only if M holds it (R74). -/
def State.unlockBy (s : State) (m : Master) : State :=
  if s.lock = some m then { s with lock := none } else s

/-! ## The interrupt controller -/

/-- The bit position of a source (R401). -/
def Source.bit : Source → Nat
  | .vblank => 0 | .lcdStat => 1 | .timer => 2 | .serial => 3 | .joypad => 4

/-- The source a number encodes; every other number is an illegal source (R402). -/
def Source.ofCode : Nat → Option Source
  | 0 => some .vblank | 1 => some .lcdStat | 2 => some .timer | 3 => some .serial
  | 4 => some .joypad | _ => none

/-- `1 << k` for a source's bit position (R401). -/
def Source.mask (k : Source) : Byte := 1#8 <<< k.bit

/-- `set_flag(source)`; no effect for an illegal source (R404). -/
def State.setFlag (s : State) (source : Nat) : State :=
  match Source.ofCode source with
  | some k => { s with ifl := s.ifl ||| k.mask }
  | none => s

/-- `IF <- IF & ~(1 << k)` (R405, R413). -/
def State.clearRequest (s : State) (k : Source) : State := { s with ifl := s.ifl &&& ~~~k.mask }

/-- `clear_flag(source)`; no effect for an illegal source (R405). -/
def State.clearFlag (s : State) (source : Nat) : State :=
  match Source.ofCode source with
  | some k => s.clearRequest k
  | none => s

/-- SCANMASK (R407). -/
def Config.scanMask (p : Config) : Byte := if p.lcdStatScanned then 0b00011111 else 0b00011101

/-- `IE & IF & SCANMASK`: the requests that are enabled and scanned (R353, R408). -/
def State.pending (s : State) : Byte := s.ie &&& s.ifl &&& Config.scanMask s.cfg

/-- The source of the lowest set bit (R408). -/
def lowestSource (m : Byte) : Option Source :=
  if m.getLsbD 0 then some .vblank
  else if m.getLsbD 1 then some .lcdStat
  else if m.getLsbD 2 then some .timer
  else if m.getLsbD 3 then some .serial
  else if m.getLsbD 4 then some .joypad
  else none

/-- `get_top(ime)` (R408). -/
def State.getTop (s : State) (ime : Bool) : Option Source :=
  if ime then lowestSource s.pending else none

/-- The vector table VEC (R411). -/
def Source.vector : Source → Word
  | .vblank => 0x0040 | .lcdStat => 0x0048 | .timer => 0x0050 | .serial => 0x0058 | .joypad => 0x0060

/-- `get_vector(source)`: fail-fast on an illegal source (R410). -/
def getVector (source : Nat) (s : State) : Res Word :=
  match Source.ofCode source with
  | some k => .ok k.vector s
  | none => raise (.illegalSource source) s

/-- `InterruptService(s)`: taking an interrupt, in the order of R413's lines. -/
def interruptService (k : Source) (s : State) : Res Unit :=
  let s := ({ s.lockBy .cpu with ime := false } : State).clearRequest k
  (push16 s.pc s).bind fun _ s =>
    (getVector k.bit s).bind fun v s =>
      .ok () ((({ s with pc := v } : State).tick cyclesInterrupt).unlockBy .cpu)

/-- The return from an interrupt handler: PC is popped, then IME set; nothing else was saved (R329,
R416). A pop that faults leaves IME as it was. -/
def returnFromInterrupt (s : State) : Res Unit :=
  (pop16 s).bind fun v s => .ok () { s with pc := v, ime := true }

end Sys2Proof.Machine
end

