-- ==== Sys2Proof/Machine/Alu16.lean ====
section
/-! DEFINITION. 16-bit arithmetic (43_alu16.md rules R250 to R253). INC rp and DEC rp write no flag. -/

namespace Sys2Proof.Machine

/-- `INC rp` (R250). -/
def execIncRp (rp : Rp) (s : State) : Out :=
  (done (cycles (.incRp rp)) (s.setPair rp (s.pair rp + 1))).finish

/-- `DEC rp` (R251). -/
def execDecRp (rp : Rp) (s : State) : Out :=
  (done (cycles (.decRp rp)) (s.setPair rp (s.pair rp - 1))).finish

/-- `HL <- HL + RP[rp]` with N, H and C (R252). -/
def addToHl (v : Word) (n : Nat) (s : State) : Res Unit :=
  done n ({ s with f := addHlFlags s.hl v s.f }.setHl (s.hl + v))

/-- `ADD HL,rp` (R252). -/
def execAddHlRp (rp : Rp) (s : State) : Out := (addToHl (s.pair rp) (cycles (.addHlRp rp)) s).finish

/-- `ADD SP,e` (R253). -/
def execAddSpE (e : Byte) (s : State) : Out :=
  (done (cycles (.addSpE e)) { s with sp := spPlusE s.sp e, f := spPlusEFlags s.sp e }).finish

end Sys2Proof.Machine
end

