-- ==== Sys2Proof/Machine/Alu8.lean ====
section
/-! DEFINITION. The eight accumulator operations in their three operand forms, INC and DEC of a byte, DAA, CPL, SCF and
CCF (42_alu8.md rules R197 to R231). -/

namespace Sys2Proof.Machine

/-- The write-back of R197: A and all four flags. -/
def writeAcc (x : AluResult) (n : Nat) (s : State) : Res Unit := done n { s with a := x.r, f := x.f }

/-- The write-back of CP: the flags only (R196). -/
def writeFlags (f : Flags) (n : Nat) (s : State) : Res Unit := done n { s with f := f }

/-- `b <- MemRead(HL, 1)`, then the rest with `b`. -/
def withHl (k : Byte → State → Res Unit) (s : State) : Res Unit := (busRead s.hl s).bind k

/-- `v <- MemRead(HL, 1); MemWrite(HL, 1, w)`, then the flags and `tick(n)`, where `g` gives w and the
flags from v (R225, R227, R281 to R295). -/
def modifyHl (g : Byte → AluResult) (n : Nat) (s : State) : Res Unit :=
  withHl (fun v s => (busWrite s.hl (g v).r s).bind fun _ s => done n { s with f := (g v).f }) s

/-- `ADD A,r` (R200). -/
def execAddAR (r : Reg8) (s : State) : Out :=
  (writeAcc (aluAdd s.a (s.reg r) false) (cycles (.addAR r)) s).finish

/-- `ADD A,(HL)` (R201). -/
def execAddAHl (s : State) : Out :=
  (withHl (fun v s => writeAcc (aluAdd s.a v false) (cycles .addAHl) s) s).finish

/-- `ADD A,d8` (R202). -/
def execAddAD8 (v : Byte) (s : State) : Out :=
  (writeAcc (aluAdd s.a v false) (cycles (.addAD8 v)) s).finish

/-- `ADC A,r` (R203). -/
def execAdcAR (r : Reg8) (s : State) : Out :=
  (writeAcc (aluAdd s.a (s.reg r) s.f.c) (cycles (.adcAR r)) s).finish

/-- `ADC A,(HL)` (R204). -/
def execAdcAHl (s : State) : Out :=
  (withHl (fun v s => writeAcc (aluAdd s.a v s.f.c) (cycles .adcAHl) s) s).finish

/-- `ADC A,d8` (R205). -/
def execAdcAD8 (v : Byte) (s : State) : Out :=
  (writeAcc (aluAdd s.a v s.f.c) (cycles (.adcAD8 v)) s).finish

/-- `SUB r` (R206). -/
def execSubR (r : Reg8) (s : State) : Out :=
  (writeAcc (aluSub s.a (s.reg r) false) (cycles (.subR r)) s).finish

/-- `SUB (HL)` (R207). -/
def execSubHl (s : State) : Out :=
  (withHl (fun v s => writeAcc (aluSub s.a v false) (cycles .subHl) s) s).finish

/-- `SUB d8` (R208). -/
def execSubD8 (v : Byte) (s : State) : Out :=
  (writeAcc (aluSub s.a v false) (cycles (.subD8 v)) s).finish

/-- `SBC A,r` (R209). -/
def execSbcAR (r : Reg8) (s : State) : Out :=
  (writeAcc (aluSub s.a (s.reg r) s.f.c) (cycles (.sbcAR r)) s).finish

/-- `SBC A,(HL)` (R210). -/
def execSbcAHl (s : State) : Out :=
  (withHl (fun v s => writeAcc (aluSub s.a v s.f.c) (cycles .sbcAHl) s) s).finish

/-- `SBC A,d8` (R211). -/
def execSbcAD8 (v : Byte) (s : State) : Out :=
  (writeAcc (aluSub s.a v s.f.c) (cycles (.sbcAD8 v)) s).finish

/-- `AND r` (R212). -/
def execAndR (r : Reg8) (s : State) : Out :=
  (writeAcc (aluAnd s.a (s.reg r)) (cycles (.andR r)) s).finish

/-- `AND (HL)` (R213). -/
def execAndHl (s : State) : Out :=
  (withHl (fun v s => writeAcc (aluAnd s.a v) (cycles .andHl) s) s).finish

/-- `AND d8` (R214). -/
def execAndD8 (v : Byte) (s : State) : Out := (writeAcc (aluAnd s.a v) (cycles (.andD8 v)) s).finish

/-- `XOR r` (R215). -/
def execXorR (r : Reg8) (s : State) : Out :=
  (writeAcc (aluXor s.a (s.reg r)) (cycles (.xorR r)) s).finish

/-- `XOR (HL)` (R216). -/
def execXorHl (s : State) : Out :=
  (withHl (fun v s => writeAcc (aluXor s.a v) (cycles .xorHl) s) s).finish

/-- `XOR d8` (R217). -/
def execXorD8 (v : Byte) (s : State) : Out := (writeAcc (aluXor s.a v) (cycles (.xorD8 v)) s).finish

/-- `OR r` (R218). -/
def execOrR (r : Reg8) (s : State) : Out :=
  (writeAcc (aluOr s.a (s.reg r)) (cycles (.orR r)) s).finish

/-- `OR (HL)` (R219). -/
def execOrHl (s : State) : Out :=
  (withHl (fun v s => writeAcc (aluOr s.a v) (cycles .orHl) s) s).finish

/-- `OR d8` (R220). -/
def execOrD8 (v : Byte) (s : State) : Out := (writeAcc (aluOr s.a v) (cycles (.orD8 v)) s).finish

/-- `CP r` (R221). -/
def execCpR (r : Reg8) (s : State) : Out :=
  (writeFlags (aluSub s.a (s.reg r) false).f (cycles (.cpR r)) s).finish

/-- `CP (HL)` (R222). -/
def execCpHl (s : State) : Out :=
  (withHl (fun v s => writeFlags (aluSub s.a v false).f (cycles .cpHl) s) s).finish

/-- `CP d8` (R223). -/
def execCpD8 (v : Byte) (s : State) : Out :=
  (writeFlags (aluSub s.a v false).f (cycles (.cpD8 v)) s).finish

/-- `R8[r] <- w` with its flags (R224, R226). -/
def writeReg (r : Reg8) (x : AluResult) (n : Nat) (s : State) : Res Unit :=
  done n ({ s with f := x.f }.setReg r x.r)

/-- `INC r` (R224). -/
def execIncR (r : Reg8) (s : State) : Out :=
  (writeReg r (incResult (s.reg r) s.f) (cycles (.incR r)) s).finish

/-- `INC (HL)` (R225). -/
def execIncHl (s : State) : Out := (modifyHl (fun v => incResult v s.f) (cycles .incHl) s).finish

/-- `DEC r` (R226). -/
def execDecR (r : Reg8) (s : State) : Out :=
  (writeReg r (decResult (s.reg r) s.f) (cycles (.decR r)) s).finish

/-- `DEC (HL)` (R227). -/
def execDecHl (s : State) : Out := (modifyHl (fun v => decResult v s.f) (cycles .decHl) s).finish

/-- `DAA` (R228). -/
def execDaa (s : State) : Out := (writeAcc (daaResult s.a s.f) (cycles .daa) s).finish

/-- `CPL` (R229). -/
def execCpl (s : State) : Out := (writeAcc (cplResult s.a s.f) (cycles .cpl) s).finish

/-- `SCF` (R230). -/
def execScf (s : State) : Out := (writeFlags (scfFlags s.f) (cycles .scf) s).finish

/-- `CCF` (R231). -/
def execCcf (s : State) : Out := (writeFlags (ccfFlags s.f) (cycles .ccf) s).finish

end Sys2Proof.Machine
end

