-- ==== Sys2Proof/Machine/RotateShiftBit.lean ====
section
/-! DEFINITION. The accumulator rotates and the whole secondary table (44_rotate_shift_bit.md rules R271 to R301): rotates,
shifts, SWAP, BIT, RES and SET on a register or on the byte at HL. -/

namespace Sys2Proof.Machine

/-- An index operand below 8 goes on; any other is an out-of-range index reaching a handler (R110). -/
def withIndex (b : Nat) (k : State → Res Unit) (s : State) : Res Unit :=
  if b < 8 then k s else raise (.invalidOperand b) s

/-- `v <- MemRead(HL, 1); MemWrite(HL, 1, g v); tick(n)`, no flags (R299, R301). -/
def updateHl (g : Byte → Byte) (n : Nat) (s : State) : Res Unit :=
  withHl (fun v s => (busWrite s.hl (g v) s).bind fun _ s => done n s) s

/-- `RLCA` (R271). -/
def execRlca (s : State) : Out := (writeAcc (Rot.rlc.accResult s.a s.f.c) (cycles .rlca) s).finish

/-- `RRCA` (R272). -/
def execRrca (s : State) : Out := (writeAcc (Rot.rrc.accResult s.a s.f.c) (cycles .rrca) s).finish

/-- `RLA` (R273). -/
def execRla (s : State) : Out := (writeAcc (Rot.rl.accResult s.a s.f.c) (cycles .rla) s).finish

/-- `RRA` (R274). -/
def execRra (s : State) : Out := (writeAcc (Rot.rr.accResult s.a s.f.c) (cycles .rra) s).finish

/-- `RLC r` (R280). -/
def execRlcR (r : Reg8) (s : State) : Out :=
  (writeReg r (Rot.rlc.result (s.reg r) s.f.c) (cycles (.rlcR r)) s).finish

/-- `RLC (HL)` (R281). -/
def execRlcHl (s : State) : Out :=
  (modifyHl (fun v => Rot.rlc.result v s.f.c) (cycles .rlcHl) s).finish

/-- `RRC r` (R282). -/
def execRrcR (r : Reg8) (s : State) : Out :=
  (writeReg r (Rot.rrc.result (s.reg r) s.f.c) (cycles (.rrcR r)) s).finish

/-- `RRC (HL)` (R283). -/
def execRrcHl (s : State) : Out :=
  (modifyHl (fun v => Rot.rrc.result v s.f.c) (cycles .rrcHl) s).finish

/-- `RL r` (R284). -/
def execRlR (r : Reg8) (s : State) : Out :=
  (writeReg r (Rot.rl.result (s.reg r) s.f.c) (cycles (.rlR r)) s).finish

/-- `RL (HL)` (R285). -/
def execRlHl (s : State) : Out :=
  (modifyHl (fun v => Rot.rl.result v s.f.c) (cycles .rlHl) s).finish

/-- `RR r` (R286). -/
def execRrR (r : Reg8) (s : State) : Out :=
  (writeReg r (Rot.rr.result (s.reg r) s.f.c) (cycles (.rrR r)) s).finish

/-- `RR (HL)` (R287). -/
def execRrHl (s : State) : Out :=
  (modifyHl (fun v => Rot.rr.result v s.f.c) (cycles .rrHl) s).finish

/-- `SLA r` (R288). -/
def execSlaR (r : Reg8) (s : State) : Out :=
  (writeReg r (Rot.sla.result (s.reg r) s.f.c) (cycles (.slaR r)) s).finish

/-- `SLA (HL)` (R289). -/
def execSlaHl (s : State) : Out :=
  (modifyHl (fun v => Rot.sla.result v s.f.c) (cycles .slaHl) s).finish

/-- `SRA r` (R290). -/
def execSraR (r : Reg8) (s : State) : Out :=
  (writeReg r (Rot.sra.result (s.reg r) s.f.c) (cycles (.sraR r)) s).finish

/-- `SRA (HL)` (R291). -/
def execSraHl (s : State) : Out :=
  (modifyHl (fun v => Rot.sra.result v s.f.c) (cycles .sraHl) s).finish

/-- `SWAP r` (R292). -/
def execSwapR (r : Reg8) (s : State) : Out :=
  (writeReg r (Rot.swap.result (s.reg r) s.f.c) (cycles (.swapR r)) s).finish

/-- `SWAP (HL)` (R293). -/
def execSwapHl (s : State) : Out :=
  (modifyHl (fun v => Rot.swap.result v s.f.c) (cycles .swapHl) s).finish

/-- `SRL r` (R294). -/
def execSrlR (r : Reg8) (s : State) : Out :=
  (writeReg r (Rot.srl.result (s.reg r) s.f.c) (cycles (.srlR r)) s).finish

/-- `SRL (HL)` (R295). -/
def execSrlHl (s : State) : Out :=
  (modifyHl (fun v => Rot.srl.result v s.f.c) (cycles .srlHl) s).finish

/-- `BIT b,r` (R296). -/
def execBitBR (b : Nat) (r : Reg8) (s : State) : Out :=
  (withIndex b (fun s => writeFlags (bitFlags (s.reg r) b s.f) (cycles (.bitBR b r)) s) s).finish

/-- `BIT b,(HL)` (R297). -/
def execBitBHl (b : Nat) (s : State) : Out :=
  (withIndex b (withHl fun v s => writeFlags (bitFlags v b s.f) (cycles (.bitBHl b)) s) s).finish

/-- `RES b,r` (R298). -/
def execResBR (b : Nat) (r : Reg8) (s : State) : Out :=
  (withIndex b (fun s => done (cycles (.resBR b r)) (s.setReg r (resetBit (s.reg r) b))) s).finish

/-- `RES b,(HL)` (R299). -/
def execResBHl (b : Nat) (s : State) : Out :=
  (withIndex b (updateHl (resetBit · b) (cycles (.resBHl b))) s).finish

/-- `SET b,r` (R300). -/
def execSetBR (b : Nat) (r : Reg8) (s : State) : Out :=
  (withIndex b (fun s => done (cycles (.setBR b r)) (s.setReg r (setBit (s.reg r) b))) s).finish

/-- `SET b,(HL)` (R301). -/
def execSetBHl (b : Nat) (s : State) : Out :=
  (withIndex b (updateHl (setBit · b) (cycles (.setBHl b))) s).finish

end Sys2Proof.Machine
end

