-- ==== Sys2Proof/Machine/CbTable.lean ====
section
/-! DEFINITION. The base-table entry 0xCB (30_encoding.md rules R102 and R115): it fetches the second opcode and runs the
secondary-table instruction that byte selects, in the same step. -/

namespace Sys2Proof.Machine

/-- The rotate or shift `rot[y]` on a register (R108, R115). -/
def cbRotReg (y : Nat) (r : Reg8) (s : State) : Out :=
  match y with
  | 0 => execRlcR r s
  | 1 => execRrcR r s
  | 2 => execRlR r s
  | 3 => execRrR r s
  | 4 => execSlaR r s
  | 5 => execSraR r s
  | 6 => execSwapR r s
  | _ => execSrlR r s

/-- The rotate or shift `rot[y]` on the byte at HL (R108, R115). -/
def cbRotHl (y : Nat) (s : State) : Out :=
  match y with
  | 0 => execRlcHl s
  | 1 => execRrcHl s
  | 2 => execRlHl s
  | 3 => execRrHl s
  | 4 => execSlaHl s
  | 5 => execSraHl s
  | 6 => execSwapHl s
  | _ => execSrlHl s

/-- The secondary dispatch on `op2` (R115). -/
def cbDispatch (op2 : Byte) (s : State) : Out :=
  match fieldX op2, Reg8.ofCode (fieldZ op2) with
  | 0, some r => cbRotReg (fieldY op2) r s
  | 0, none => cbRotHl (fieldY op2) s
  | 1, some r => execBitBR (fieldY op2) r s
  | 1, none => execBitBHl (fieldY op2) s
  | 2, some r => execResBR (fieldY op2) r s
  | 2, none => execResBHl (fieldY op2) s
  | _, some r => execSetBR (fieldY op2) r s
  | _, none => execSetBHl (fieldY op2) s

/-- The entry 0xCB, PC past it: `op2 <- fetch8()`, then the secondary table (R102). -/
def execPrefixCb (s : State) : Out :=
  match fetch8 s with
  | .ok op2 s => cbDispatch op2 s
  | .raised s => .next s

end Sys2Proof.Machine
end

