-- ==== Sys2Proof/Machine/ControlTransfer.lean ====
section
/-! DEFINITION. Jumps, calls, returns and restarts (45_control_transfer.md rules R320 to R331). PC already points past the
instruction (R320 (a)); no instruction here touches a flag (R320 (e)). -/

namespace Sys2Proof.Machine

/-- `PC <- target; tick(n)`. -/
def jump (target : Word) (n : Nat) (s : State) : Res Unit := done n { s with pc := target }

/-- `push16(PC); PC <- target; tick(n)` (R326). -/
def call (target : Word) (n : Nat) (s : State) : Res Unit :=
  (push16 s.pc s).bind fun _ s => jump target n s

/-- `PC <- pop16(); tick(n)` (R328). -/
def returnTo (n : Nat) (s : State) : Res Unit := (pop16 s).bind fun v s => jump v n s

/-- `if cond(cc): taken else: tick(n)`: the condition is read once (R320 (b)). -/
def ifCond (cc : Cond) (taken : State → Res Unit) (n : Nat) (s : State) : Res Unit :=
  if s.cond cc then taken s else done n s

/-- `JP a16` (R321). -/
def execJpA16 (addr : Word) (s : State) : Out := (jump addr (cycles (.jpA16 addr)) s).finish

/-- `JP cc,a16` (R322). -/
def execJpCcA16 (cc : Cond) (addr : Word) (s : State) : Out :=
  (ifCond cc (jump addr (cycles (.jpCcA16 cc addr))) cyclesJpNotTaken s).finish

/-- `JP HL` (R323). -/
def execJpHl (s : State) : Out := (jump s.hl (cycles .jpHl) s).finish

/-- `JR e` (R324). -/
def execJrE (e : Byte) (s : State) : Out := (jump (s.relative e) (cycles (.jrE e)) s).finish

/-- `JR cc,e` (R325). -/
def execJrCcE (cc : Cond) (e : Byte) (s : State) : Out :=
  (ifCond cc (jump (s.relative e) (cycles (.jrCcE cc e))) cyclesJrNotTaken s).finish

/-- `CALL a16` (R326). -/
def execCallA16 (addr : Word) (s : State) : Out := (call addr (cycles (.callA16 addr)) s).finish

/-- `CALL cc,a16` (R327). -/
def execCallCcA16 (cc : Cond) (addr : Word) (s : State) : Out :=
  (ifCond cc (call addr (cycles (.callCcA16 cc addr))) cyclesCallNotTaken s).finish

/-- `RET` (R328). -/
def execRet (s : State) : Out := (returnTo (cycles .ret) s).finish

/-- `RETI` (R329). -/
def execReti (s : State) : Out :=
  ((returnFromInterrupt s).bind fun _ s => done (cycles .reti) s).finish

/-- `RET cc` (R330). -/
def execRetCc (cc : Cond) (s : State) : Out :=
  (ifCond cc (returnTo (cycles (.retCc cc))) cyclesRetNotTaken s).finish

/-- `RST t` (R331). -/
def execRstT (t : Nat) (s : State) : Out :=
  (withIndex t (call (restartTarget t) (cycles (.rstT t))) s).finish

end Sys2Proof.Machine
end

