-- ==== Sys2Proof/Machine/Load16.lean ====
section
/-! DEFINITION. The 16-bit loads, PUSH and POP (41_load16_stack.md rules R170 to R179). Only `LD HL,SP+e` and
`POP AF` write flags. -/

namespace Sys2Proof.Machine

/-- `LD rp,d16` (R170). -/
def execLdRpD16 (rp : Rp) (v : Word) (s : State) : Out :=
  (done (cycles (.ldRpD16 rp v)) (s.setPair rp v)).finish

/-- `LD (a16),SP` (R171). -/
def execLdA16Sp (addr : Word) (s : State) : Out :=
  ((memWrite16 addr s.sp s).bind fun _ s => done (cycles (.ldA16Sp addr)) s).finish

/-- `LD SP,HL` (R172). -/
def execLdSpHl (s : State) : Out := (done (cycles .ldSpHl) { s with sp := s.hl }).finish

/-- `LD HL,SP+e` (R173). -/
def execLdHlSpE (e : Byte) (s : State) : Out :=
  (done (cycles (.ldHlSpE e)) ({ s with f := spPlusEFlags s.sp e }.setHl (spPlusE s.sp e))).finish

/-- `PUSH rp2` (R174). -/
def execPush (rp : Rp2) (s : State) : Out :=
  ((push16 (s.stackPair rp) s).bind fun _ s => done (cycles (.push rp)) s).finish

/-- `POP rp2` (R175). -/
def execPop (rp : Rp2) (s : State) : Out :=
  ((pop16 s).bind fun v s => done (cycles (.pop rp)) (s.setStackPair rp v)).finish

/-- `PUSH AF` (R178). -/
def execPushAf (s : State) : Out := ((push16 s.af s).bind fun _ s => done (cycles .pushAf) s).finish

/-- `POP AF` (R179): F[3:0] of the popped byte are discarded. -/
def execPopAf (s : State) : Out :=
  ((pop16 s).bind fun v s => done (cycles .popAf) (s.setAf v)).finish

end Sys2Proof.Machine
end

