-- ==== Sys2Proof/Machine/Load8.lean ====
section
/-! DEFINITION. The 8-bit loads and stores (40_load8.md rules R141 to R159). No load writes a flag. PC already points past
the instruction (R13). -/

namespace Sys2Proof.Machine

/-- `R8[r] <- MemRead(addr, 1); tick(n)`. -/
def loadReg (r : Reg8) (addr : Word) (n : Nat) (s : State) : Res Unit :=
  (busRead addr s).bind fun v s => done n (s.setReg r v)

/-- `MemWrite(addr, 1, v); tick(n)`. -/
def storeByte (addr : Word) (v : Byte) (n : Nat) (s : State) : Res Unit :=
  (busWrite addr v s).bind fun _ s => done n s

/-- `A <- MemRead(HL, 1); HL <- HL + step; tick(n)`: the access uses the old HL (R140 mode 4). -/
def loadStepHl (step : Word) (n : Nat) (s : State) : Res Unit :=
  (busRead s.hl s).bind fun v s => done n ({ s with a := v }.setHl (s.hl + step))

/-- `MemWrite(HL, 1, A); HL <- HL + step; tick(n)` (R140 mode 4). -/
def storeStepHl (step : Word) (n : Nat) (s : State) : Res Unit :=
  (busWrite s.hl s.a s).bind fun _ s => done n (s.setHl (s.hl + step))

/-- `LD r,r'` (R141). -/
def execLdRR (dst src : Reg8) (s : State) : Out :=
  (done (cycles (.ldRR dst src)) (s.setReg dst (s.reg src))).finish

/-- `LD r,(HL)` (R142): reads at the old HL even when r is H or L. -/
def execLdRHl (dst : Reg8) (s : State) : Out := (loadReg dst s.hl (cycles (.ldRHl dst)) s).finish

/-- `LD (HL),r` (R143). -/
def execLdHlR (src : Reg8) (s : State) : Out :=
  (storeByte s.hl (s.reg src) (cycles (.ldHlR src)) s).finish

/-- `LD r,d8` (R144). -/
def execLdRD8 (dst : Reg8) (v : Byte) (s : State) : Out :=
  (done (cycles (.ldRD8 dst v)) (s.setReg dst v)).finish

/-- `LD (HL),d8` (R145). -/
def execLdHlD8 (v : Byte) (s : State) : Out := (storeByte s.hl v (cycles (.ldHlD8 v)) s).finish

/-- `LD A,(BC)` (R146). -/
def execLdABc (s : State) : Out := (loadReg .a s.bc (cycles .ldABc) s).finish

/-- `LD A,(DE)` (R147). -/
def execLdADe (s : State) : Out := (loadReg .a s.de (cycles .ldADe) s).finish

/-- `LD (BC),A` (R148). -/
def execLdBcA (s : State) : Out := (storeByte s.bc s.a (cycles .ldBcA) s).finish

/-- `LD (DE),A` (R149). -/
def execLdDeA (s : State) : Out := (storeByte s.de s.a (cycles .ldDeA) s).finish

/-- `LD A,(a16)` (R150). -/
def execLdAA16 (addr : Word) (s : State) : Out := (loadReg .a addr (cycles (.ldAA16 addr)) s).finish

/-- `LD (a16),A` (R151). -/
def execLdA16A (addr : Word) (s : State) : Out :=
  (storeByte addr s.a (cycles (.ldA16A addr)) s).finish

/-- `LDH A,(a8)` (R152). -/
def execLdhAA8 (n : Byte) (s : State) : Out :=
  (loadReg .a (highPage n) (cycles (.ldhAA8 n)) s).finish

/-- `LDH (a8),A` (R153). -/
def execLdhA8A (n : Byte) (s : State) : Out :=
  (storeByte (highPage n) s.a (cycles (.ldhA8A n)) s).finish

/-- `LD A,(C)` (R154). -/
def execLdAC (s : State) : Out := (loadReg .a (highPage s.c) (cycles .ldAC) s).finish

/-- `LD (C),A` (R155). -/
def execLdCA (s : State) : Out := (storeByte (highPage s.c) s.a (cycles .ldCA) s).finish

/-- `LD A,(HL+)` (R156). -/
def execLdAHlInc (s : State) : Out := (loadStepHl 1 (cycles .ldAHlInc) s).finish

/-- `LD A,(HL-)` (R157). -/
def execLdAHlDec (s : State) : Out := (loadStepHl (-1) (cycles .ldAHlDec) s).finish

/-- `LD (HL+),A` (R158). -/
def execLdHlIncA (s : State) : Out := (storeStepHl 1 (cycles .ldHlIncA) s).finish

/-- `LD (HL-),A` (R159). -/
def execLdHlDecA (s : State) : Out := (storeStepHl (-1) (cycles .ldHlDecA) s).finish

end Sys2Proof.Machine
end

