-- ==== Sys2Proof/Machine/System.lean ====
section
/-! DEFINITION. NOP, HALT, STOP, DI, EI and the eleven undefined first bytes (46_misc_system.md rules R350 to R357). -/

namespace Sys2Proof.Machine

/-- `NOP` (R350). -/
def execNop (s : State) : Out := (done (cycles .nop) s).finish

/-- `HALT` (R352): sets the latch whatever IME, IE and IF are. -/
def execHalt (s : State) : Out := (done (cycles .halt) { s with halted := true }).finish

/-- `STOP` (R354): the second byte has been fetched and is ignored; the latch is never cleared. -/
def execStop (pad : Byte) (s : State) : Out :=
  (done (cycles (.stop pad)) { s with stopped := true }).finish

/-- `DI` (R355): at once. -/
def execDi (s : State) : Out := (done (cycles .di) { s with ime := false }).finish

/-- `EI` (R356): at once, with no one-instruction delay (D9). -/
def execEi (s : State) : Out := (done (cycles .ei) { s with ime := true }).finish

/-- The ILLEGAL handler: `raise Abort(IllegalOpcode, op)`, with no `tick` (R357). -/
def illegal (op : Byte) (s : State) : Res Unit := raise (.illegalOpcode op) s

/-- The undefined first byte 0xD3 (R109, R357). -/
def execIllegalD3 (s : State) : Out := (illegal 0xD3 s).finish

/-- The undefined first byte 0xDB (R109, R357). -/
def execIllegalDB (s : State) : Out := (illegal 0xDB s).finish

/-- The undefined first byte 0xDD (R109, R357). -/
def execIllegalDD (s : State) : Out := (illegal 0xDD s).finish

/-- The undefined first byte 0xE3 (R109, R357). -/
def execIllegalE3 (s : State) : Out := (illegal 0xE3 s).finish

/-- The undefined first byte 0xE4 (R109, R357). -/
def execIllegalE4 (s : State) : Out := (illegal 0xE4 s).finish

/-- The undefined first byte 0xEB (R109, R357). -/
def execIllegalEB (s : State) : Out := (illegal 0xEB s).finish

/-- The undefined first byte 0xEC (R109, R357). -/
def execIllegalEC (s : State) : Out := (illegal 0xEC s).finish

/-- The undefined first byte 0xED (R109, R357). -/
def execIllegalED (s : State) : Out := (illegal 0xED s).finish

/-- The undefined first byte 0xF4 (R109, R357). -/
def execIllegalF4 (s : State) : Out := (illegal 0xF4 s).finish

/-- The undefined first byte 0xFC (R109, R357). -/
def execIllegalFC (s : State) : Out := (illegal 0xFC s).finish

/-- The undefined first byte 0xFD (R109, R357). -/
def execIllegalFD (s : State) : Out := (illegal 0xFD s).finish

end Sys2Proof.Machine
end

