-- ==== Sys2Proof/Machine/Dispatch.lean ====
section
/-! DEFINITION. The dispatch of 30_encoding.md rule R109: one arm per instruction, each a direct call of its
meaning. The state an instruction runs in has PC past its bytes (R13); the entry 0xCB, past 0xCB alone. -/

namespace Sys2Proof.Machine

def exec (i : Instr) (s : State) : Host.Outcome State Fault Refusal :=
  match i with
  | .ldRR dst src => Sys2Proof.Machine.execLdRR dst src s
  | .ldRHl dst => Sys2Proof.Machine.execLdRHl dst s
  | .ldHlR src => Sys2Proof.Machine.execLdHlR src s
  | .ldRD8 dst v => Sys2Proof.Machine.execLdRD8 dst v s
  | .ldHlD8 v => Sys2Proof.Machine.execLdHlD8 v s
  | .ldABc => Sys2Proof.Machine.execLdABc s
  | .ldADe => Sys2Proof.Machine.execLdADe s
  | .ldBcA => Sys2Proof.Machine.execLdBcA s
  | .ldDeA => Sys2Proof.Machine.execLdDeA s
  | .ldAA16 addr => Sys2Proof.Machine.execLdAA16 addr s
  | .ldA16A addr => Sys2Proof.Machine.execLdA16A addr s
  | .ldhAA8 n => Sys2Proof.Machine.execLdhAA8 n s
  | .ldhA8A n => Sys2Proof.Machine.execLdhA8A n s
  | .ldAC => Sys2Proof.Machine.execLdAC s
  | .ldCA => Sys2Proof.Machine.execLdCA s
  | .ldAHlInc => Sys2Proof.Machine.execLdAHlInc s
  | .ldAHlDec => Sys2Proof.Machine.execLdAHlDec s
  | .ldHlIncA => Sys2Proof.Machine.execLdHlIncA s
  | .ldHlDecA => Sys2Proof.Machine.execLdHlDecA s
  | .ldRpD16 rp v => Sys2Proof.Machine.execLdRpD16 rp v s
  | .ldA16Sp addr => Sys2Proof.Machine.execLdA16Sp addr s
  | .ldSpHl => Sys2Proof.Machine.execLdSpHl s
  | .ldHlSpE e => Sys2Proof.Machine.execLdHlSpE e s
  | .push rp => Sys2Proof.Machine.execPush rp s
  | .pop rp => Sys2Proof.Machine.execPop rp s
  | .pushAf => Sys2Proof.Machine.execPushAf s
  | .popAf => Sys2Proof.Machine.execPopAf s
  | .addAR r => Sys2Proof.Machine.execAddAR r s
  | .addAHl => Sys2Proof.Machine.execAddAHl s
  | .addAD8 v => Sys2Proof.Machine.execAddAD8 v s
  | .adcAR r => Sys2Proof.Machine.execAdcAR r s
  | .adcAHl => Sys2Proof.Machine.execAdcAHl s
  | .adcAD8 v => Sys2Proof.Machine.execAdcAD8 v s
  | .subR r => Sys2Proof.Machine.execSubR r s
  | .subHl => Sys2Proof.Machine.execSubHl s
  | .subD8 v => Sys2Proof.Machine.execSubD8 v s
  | .sbcAR r => Sys2Proof.Machine.execSbcAR r s
  | .sbcAHl => Sys2Proof.Machine.execSbcAHl s
  | .sbcAD8 v => Sys2Proof.Machine.execSbcAD8 v s
  | .andR r => Sys2Proof.Machine.execAndR r s
  | .andHl => Sys2Proof.Machine.execAndHl s
  | .andD8 v => Sys2Proof.Machine.execAndD8 v s
  | .xorR r => Sys2Proof.Machine.execXorR r s
  | .xorHl => Sys2Proof.Machine.execXorHl s
  | .xorD8 v => Sys2Proof.Machine.execXorD8 v s
  | .orR r => Sys2Proof.Machine.execOrR r s
  | .orHl => Sys2Proof.Machine.execOrHl s
  | .orD8 v => Sys2Proof.Machine.execOrD8 v s
  | .cpR r => Sys2Proof.Machine.execCpR r s
  | .cpHl => Sys2Proof.Machine.execCpHl s
  | .cpD8 v => Sys2Proof.Machine.execCpD8 v s
  | .incR r => Sys2Proof.Machine.execIncR r s
  | .incHl => Sys2Proof.Machine.execIncHl s
  | .decR r => Sys2Proof.Machine.execDecR r s
  | .decHl => Sys2Proof.Machine.execDecHl s
  | .daa => Sys2Proof.Machine.execDaa s
  | .cpl => Sys2Proof.Machine.execCpl s
  | .scf => Sys2Proof.Machine.execScf s
  | .ccf => Sys2Proof.Machine.execCcf s
  | .incRp rp => Sys2Proof.Machine.execIncRp rp s
  | .decRp rp => Sys2Proof.Machine.execDecRp rp s
  | .addHlRp rp => Sys2Proof.Machine.execAddHlRp rp s
  | .addSpE e => Sys2Proof.Machine.execAddSpE e s
  | .rlca => Sys2Proof.Machine.execRlca s
  | .rrca => Sys2Proof.Machine.execRrca s
  | .rla => Sys2Proof.Machine.execRla s
  | .rra => Sys2Proof.Machine.execRra s
  | .rlcR r => Sys2Proof.Machine.execRlcR r s
  | .rlcHl => Sys2Proof.Machine.execRlcHl s
  | .rrcR r => Sys2Proof.Machine.execRrcR r s
  | .rrcHl => Sys2Proof.Machine.execRrcHl s
  | .rlR r => Sys2Proof.Machine.execRlR r s
  | .rlHl => Sys2Proof.Machine.execRlHl s
  | .rrR r => Sys2Proof.Machine.execRrR r s
  | .rrHl => Sys2Proof.Machine.execRrHl s
  | .slaR r => Sys2Proof.Machine.execSlaR r s
  | .slaHl => Sys2Proof.Machine.execSlaHl s
  | .sraR r => Sys2Proof.Machine.execSraR r s
  | .sraHl => Sys2Proof.Machine.execSraHl s
  | .swapR r => Sys2Proof.Machine.execSwapR r s
  | .swapHl => Sys2Proof.Machine.execSwapHl s
  | .srlR r => Sys2Proof.Machine.execSrlR r s
  | .srlHl => Sys2Proof.Machine.execSrlHl s
  | .bitBR b r => Sys2Proof.Machine.execBitBR b r s
  | .bitBHl b => Sys2Proof.Machine.execBitBHl b s
  | .resBR b r => Sys2Proof.Machine.execResBR b r s
  | .resBHl b => Sys2Proof.Machine.execResBHl b s
  | .setBR b r => Sys2Proof.Machine.execSetBR b r s
  | .setBHl b => Sys2Proof.Machine.execSetBHl b s
  | .jpA16 addr => Sys2Proof.Machine.execJpA16 addr s
  | .jpCcA16 cc addr => Sys2Proof.Machine.execJpCcA16 cc addr s
  | .jpHl => Sys2Proof.Machine.execJpHl s
  | .jrE e => Sys2Proof.Machine.execJrE e s
  | .jrCcE cc e => Sys2Proof.Machine.execJrCcE cc e s
  | .callA16 addr => Sys2Proof.Machine.execCallA16 addr s
  | .callCcA16 cc addr => Sys2Proof.Machine.execCallCcA16 cc addr s
  | .ret => Sys2Proof.Machine.execRet s
  | .reti => Sys2Proof.Machine.execReti s
  | .retCc cc => Sys2Proof.Machine.execRetCc cc s
  | .rstT t => Sys2Proof.Machine.execRstT t s
  | .nop => Sys2Proof.Machine.execNop s
  | .prefixCb => Sys2Proof.Machine.execPrefixCb s
  | .halt => Sys2Proof.Machine.execHalt s
  | .stop pad => Sys2Proof.Machine.execStop pad s
  | .di => Sys2Proof.Machine.execDi s
  | .ei => Sys2Proof.Machine.execEi s
  | .illegalD3 => Sys2Proof.Machine.execIllegalD3 s
  | .illegalDB => Sys2Proof.Machine.execIllegalDB s
  | .illegalDD => Sys2Proof.Machine.execIllegalDD s
  | .illegalE3 => Sys2Proof.Machine.execIllegalE3 s
  | .illegalE4 => Sys2Proof.Machine.execIllegalE4 s
  | .illegalEB => Sys2Proof.Machine.execIllegalEB s
  | .illegalEC => Sys2Proof.Machine.execIllegalEC s
  | .illegalED => Sys2Proof.Machine.execIllegalED s
  | .illegalF4 => Sys2Proof.Machine.execIllegalF4 s
  | .illegalFC => Sys2Proof.Machine.execIllegalFC s
  | .illegalFD => Sys2Proof.Machine.execIllegalFD s

end Sys2Proof.Machine
end

