-- ==== Sys2Proof/Machine/Cycle.lean ====
section
/-! DEFINITION. One CPU step (10_state.md rule R40): the instruction fetch (30_encoding.md rules R101 and
R102), Normal-Dispatch, the halted CPU (46_misc_system.md rule R353) and the priority of
Interrupt-Service over Normal-Dispatch (60_exceptions.md rule R409). -/

namespace Sys2Proof.Machine

/-- The opcode and its immediates, one `fetch8` each, in ascending address order (R86, R101). A fetch
that faults ends the step with PC past the bytes before it. For 0xCB this fetches that byte alone: its
entry fetches the second opcode (R102). -/
def fetchInstr (s : State) : Res Instr :=
  (fetch8 s).bind fun op s =>
    match immediateCount op with
    | 0 => .ok (decodeBase op 0 0) s
    | 1 => (fetch8 s).bind fun n1 s => .ok (decodeBase op n1 0) s
    | _ => (fetch8 s).bind fun n1 s => (fetch8 s).bind fun n2 s => .ok (decodeBase op n1 n2) s

/-- Normal-Dispatch (R102). -/
def normalDispatch (s : State) : Out :=
  match fetchInstr s with
  | .ok i s => exec i s
  | .raised s => .next s

/-- The two macro-states, Interrupt-Service first (R40, R409). -/
def dispatchStep (s : State) : Out :=
  match s.getTop s.ime with
  | some k => (interruptService k s).finish
  | none => normalDispatch s

/-- The CPU takes no step: it is dead, stopped, or held by another owner's lock (R40, R75). -/
def State.cpuHeld (s : State) : Bool :=
  s.fault.isSome || s.stopped || !s.lockFreeFor .cpu

/-- `CpuStep` (R40). No step is the state unchanged (R15). -/
def cpuStep (s : State) : Out :=
  if s.cpuHeld then .next s
  else if s.halted then
    if s.pending = 0 then .next (s.tick cyclesIdle)
    else dispatchStep { s with halted := false }
  else dispatchStep s

/-- Store a byte where the bus reads the address, read-only storage included (a device of the platform's
own has no byte to store): how a program comes into
the machine from outside (log entry 4), never an effect of a step. -/
def State.poke (s : State) (a : Word) (v : Byte) : State :=
  match s.placeOf a with
  | some (.device _) => s
  | some p => s.put p v
  | none => s

/-- Store bytes at consecutive addresses from `a`. -/
def State.pokeAll (s : State) (a : Word) : List Byte → State
  | [] => s
  | v :: vs => (s.poke a v).pokeAll (a + 1) vs

/-- The three bytes of a table word, low byte first; bytes above `nbits` are 0. -/
def programBytes (nbits w : Nat) : List Byte :=
  let v := w % 2 ^ nbits
  [BitVec.ofNat 8 v, BitVec.ofNat 8 (v / 256), BitVec.ofNat 8 (v / 65536)]

/-- Clear what would keep the next step from being a Normal-Dispatch: the environment's pending and
free moves, the fault, stop and halt latches, the lock, and IME if a request would be serviced. -/
def State.readyToFetch (s : State) : State :=
  { s with
    inputs := []
    freeRun := none
    fault := none
    stopped := false
    halted := false
    lock := none
    ime := s.ime && (s.getTop s.ime).isNone }

end Sys2Proof.Machine
end

