-- ==== Sys2Proof/Machine/Queue.lean ====
section
/-! DEFINITION. The bounded priority queue of 48_priority_queue_scheduler.md section 1, generic in the
element type and the comparator (R370): a binary heap in a list, which is `data[0 .. len-1]` (R372). An
operation answers a value or the failure; the fault latch is the wrapper's (R388). -/

namespace Sys2Proof.Machine.Queue

variable {α : Type}

/-- `parent(i)` (R373). -/
def parent (i : Nat) : Nat := (i - 1) / 2

/-- `left(i)` (R373). -/
def left (i : Nat) : Nat := 2 * i + 1

/-- `right(i)` (R373). -/
def right (i : Nat) : Nat := 2 * i + 2

/-- `lower(data[i], data[j])`, false where an index is past the end (never asked there). -/
def lowerAt (lower : α → α → Bool) (data : List α) (i j : Nat) : Bool :=
  match data[i]?, data[j]? with
  | some x, some y => lower x y
  | _, _ => false

/-- `swap data[i], data[j]`. -/
def swap (data : List α) (i j : Nat) : List α :=
  match data[i]?, data[j]? with
  | some x, some y => (data.set i y).set j x
  | _, _ => data

/-- The heap invariant: no parent is lower than its child (R374). -/
def heapOrdered (lower : α → α → Bool) (data : List α) : Bool :=
  (List.range data.length).all fun i => i == 0 || !lowerAt lower data (parent i) i

/-- `is_empty()` (R375). -/
def isEmpty (data : List α) : Bool := decide (data.length = 0)

/-- `is_full()` (R376). -/
def isFull (cap : Nat) (data : List α) : Bool := decide (data.length = cap)

/-- `front()` (R377). -/
def front : List α → Except Fault α
  | [] => .error (.emptyContainer .front)
  | x :: _ => .ok x

/-- The loop of `push` from position `i` (R378); `i` itself bounds the number of turns. -/
def siftUp (lower : α → α → Bool) : Nat → Nat → List α → List α
  | 0, _, data => data
  | fuel + 1, i, data =>
    if 0 < i && lowerAt lower data (parent i) i then
      siftUp lower fuel (parent i) (swap data (parent i) i)
    else data

/-- `push(x)` (R378). -/
def push (lower : α → α → Bool) (cap : Nat) (x : α) (data : List α) : Except Fault (List α) :=
  if isFull cap data then .error (.capacityExceeded .queue)
  else .ok (siftUp lower data.length data.length (data ++ [x]))

/-- The child the sift goes to: the higher-priority one, the left on a tie (R379). -/
def higherChild (lower : α → α → Bool) (data : List α) (i : Nat) : Nat :=
  if right i < data.length && lowerAt lower data (left i) (right i) then right i else left i

/-- The loop of `pop` from position `i` (R379); the length bounds the number of turns. -/
def siftDown (lower : α → α → Bool) : Nat → Nat → List α → List α
  | 0, _, data => data
  | fuel + 1, i, data =>
    if left i < data.length && lowerAt lower data i (higherChild lower data i) then
      siftDown lower fuel (higherChild lower data i) (swap data i (higherChild lower data i))
    else data

/-- `pop()`: the element and the queue after it (R379). -/
def pop (lower : α → α → Bool) : List α → Except Fault (α × List α)
  | [] => .error (.emptyContainer .pop)
  | x :: xs =>
    let rest := (swap (x :: xs) 0 xs.length).dropLast
    .ok (x, siftDown lower rest.length 0 rest)

end Sys2Proof.Machine.Queue
end

