-- ==== Sys2Proof/Machine/Scheduler.lean ====
section
/-! DEFINITION. The event scheduler of 48_priority_queue_scheduler.md section 2: the one instance of the
queue, ordered by timestamp, with the rebase that guards against wrap-around. -/

namespace Sys2Proof.Machine

/-- `lower(a, b) = (a.timestamp > b.timestamp)` (R382). -/
def Event.lower (a b : Event) : Bool := decide (b.timestamp < a.timestamp)

/-- The event lowered by `m` (R384). -/
def Event.rebase (m : BitVec 64) (e : Event) : Event := { e with timestamp := e.timestamp - m }

/-- The rebase offset: the lesser of the front's timestamp and the new event's (R384). -/
def rebaseOffset (root e : Event) : BitVec 64 :=
  if e.timestamp < root.timestamp then e.timestamp else root.timestamp

/-- The rebase before an insertion: the queue and the new event as they are pushed (R383, R384). Nothing
happens on an empty queue or at or below the threshold. -/
def rebaseFor (p : Config) (e : Event) (data : List Event) : List Event × Event :=
  match data with
  | [] => ([], e)
  | root :: rest =>
    if e.timestamp.toNat > p.tsWrap then
      let m := rebaseOffset root e
      ((root :: rest).map (Event.rebase m), e.rebase m)
    else (root :: rest, e)

/-- `schedule(e)`: the full check, then the rebase, then the insertion (R383). -/
def schedule (p : Config) (e : Event) (data : List Event) : Except Fault (List Event) :=
  if Queue.isFull p.pqCap data then .error (.capacityExceeded .queue)
  else Queue.push Event.lower p.pqCap (rebaseFor p e data).2 (rebaseFor p e data).1

/-- `execute_next()`: the earliest event leaves and its action goes back to the environment (R385). -/
def executeNext (data : List Event) : Except Fault (Event × List Event) := Queue.pop Event.lower data

end Sys2Proof.Machine
end

