-- ==== Sys2Proof/Machine/Environment.lean ====
section
/-! DEFINITION. The environment's moves (00_scope.md rule R14), each atomic and between CPU steps: the
interrupt request port, the other bus masters under the lock protocol, and the queue and scheduler
ports with their wrapper that latches a failure (48_priority_queue_scheduler.md rule R388). -/

namespace Sys2Proof.Machine

/-- The answer to a move, as a next state. -/
def answer (r : Reply) (s : State) : Out := .next { s with reply := some r }

/-- A bus operation of another master: made only while the lock allows that master bus I/O (R14, R75). -/
def masterAccess {α : Type} (m : Nat) (op : State → Res α) (reply : α → Reply) (s : State) : Out :=
  if s.lockFreeFor (.dev m) then
    match op s with
    | .ok v s => answer (reply v) s
    | .raised s => .next { s with reply := s.fault.map .failed }
  else answer .notEnabled s

/-- A queue operation's failure: reported, and latched like any other fault (R388). -/
def queueFailure (k : Fault) (s : State) : Out :=
  .next { s with fault := some k, reply := some (.failed k) }

/-- The result of `push` or `schedule`. -/
def queueWritten (x : Except Fault (List Event)) (s : State) : Out :=
  match x with
  | .ok q => answer .done { s with queue := q }
  | .error k => queueFailure k s

/-- The result of `pop` or `execute_next`. -/
def queueTaken (x : Except Fault (Event × List Event)) (s : State) : Out :=
  match x with
  | .ok (e, q) => answer (.event e) { s with queue := q }
  | .error k => queueFailure k s

/-- The result of `front`. -/
def queueSeen (x : Except Fault Event) (s : State) : Out :=
  match x with
  | .ok e => answer (.event e) s
  | .error k => queueFailure k s

/-- One move of the environment (R14). A move that is not enabled does nothing but say so. -/
def runMove (m : Move) (s : State) : Out :=
  match m with
  | .cpuStep => cpuStep s
  | .setFlag source => answer .done (s.setFlag source)
  | .clearFlag source => answer .done (s.clearFlag source)
  | .busRead m a => masterAccess m (busRead a) .byte s
  | .busWrite m a v => masterAccess m (busWrite a v) (fun _ => .done) s
  | .lock m => if s.lockFreeFor (.dev m) then answer .done (s.lockBy (.dev m)) else answer .notEnabled s
  | .unlock m => answer .done (s.unlockBy (.dev m))
  | .schedule e => queueWritten (schedule s.cfg e s.queue) s
  | .executeNext => queueTaken (executeNext s.queue) s
  | .push e => queueWritten (Queue.push Event.lower s.cfg.pqCap e s.queue) s
  | .pop => queueTaken (Queue.pop Event.lower s.queue) s
  | .front => queueSeen (Queue.front s.queue) s
  | .isEmpty => answer (.answer (Queue.isEmpty s.queue)) s
  | .isFull => answer (.answer (Queue.isFull s.cfg.pqCap s.queue)) s

/-- The environment's next move, with the state once it is taken: the first pending one; after those the
next free move of the run; and a CPU step where the environment makes no move of its own (log entries 3, 22). -/
def State.takeMove (s : State) : Move × State :=
  match s.inputs with
  | m :: rest => (m, { s with inputs := rest })
  | [] =>
    match s.freeRun with
    | some k => (Config.freeMove k s.turn, { s with turn := s.turn + 1 })
    | none => (.cpuStep, s)

/-- What happens next: after a fault nothing (R15, R420); otherwise the next move. -/
def nextAction (s : State) : Out :=
  if s.fault.isSome then .next s else runMove s.takeMove.1 s.takeMove.2

end Sys2Proof.Machine
end

