-- ==== Sys2Proof/Machine/Step.lean ====
section
/-! DEFINITION. The machine's step, and how a program word is placed where the next step fetches. -/

namespace Sys2Proof.Machine

/-- One step of the machine: one move of the environment, or one CPU step when the environment makes
none (00_scope.md rules R8, R9, R14; 10_state.md rule R40). -/
def step (s : State) : Host.Outcome State Fault Refusal := nextAction s

/-- `s` with the bytes of a table word stored at PC and the machine ready to fetch them (log entry 4). -/
def State.withFetchWord (s : State) (nbits w : Nat) : State :=
  s.readyToFetch.pokeAll s.pc (programBytes nbits w)

end Sys2Proof.Machine
end

