-- ==== Sys2Proof/Machine/Boot.lean ====
section
/-! DEFINITION. Boot wiring (70_reset_and_hazards.md rule R452): the devices register their connections in
order, as part of reset and before the first step. -/

namespace Sys2Proof.Machine

/-- `register(connection)`: appended at the end, or `CapacityExceeded(bus)` with the list unchanged (R66). -/
def register (c : Connection) (s : State) : Res Unit :=
  if s.cfg.nDev ≤ s.bus.length then raise (.capacityExceeded .bus) s
  else .ok () { s with bus := s.bus ++ [c] }

/-- Register the connections of a map in order; the first failure ends the wiring (R452). -/
def wire : List Connection → State → Res Unit
  | [], s => .ok () s
  | c :: rest, s => (register c s).bind fun _ s => wire rest s

/-- Reset with its boot wiring: the state before the first step (R450, R452). -/
def boot (r : ResetValues) (p : Platform) : State :=
  match wire p.map (State.resetWith r { p with map := [] }) with
  | .ok _ s => s
  | .raised s => s

end Sys2Proof.Machine
end

