-- ==== Sys2Proof/Machine/Effects.lean ====
section
/-! DEFINITION. What each instruction may touch, as tables over the instruction set: the addresses it
reads and stores to, the registers, the flags and the pointers it may write. The frame statements are
stated in these tables; no meaning uses them. -/

namespace Sys2Proof

open Sys2Proof.Machine

/-- The two halves of an `RP` operand; SP has none (R24, R105). -/
def Rp.halves : Rp → List Reg8
  | .bc => [.b, .c] | .de => [.d, .e] | .hl => [.h, .l] | .sp => []

/-- The two halves of an `RP2` operand (R106). -/
def Rp2.halves : Rp2 → List Reg8
  | .bc => [.b, .c] | .de => [.d, .e] | .hl => [.h, .l]

/-- The addresses an instruction reads data from, with the expressions its meaning uses (20_memory.md R61,
R86). A conditional return reads the stack only when taken (R330). For the entry 0xCB see
`PrefixRunsSecondTable`: here it has only the byte it fetches. -/
def Instr.loads : Instr → State → List Word
  | .ldRHl _ | .ldAHlInc | .ldAHlDec | .addAHl | .adcAHl | .subHl | .sbcAHl | .andHl | .xorHl
  | .orHl | .cpHl | .incHl | .decHl | .rlcHl | .rrcHl | .rlHl | .rrHl | .slaHl | .sraHl
  | .swapHl | .srlHl | .bitBHl _ | .resBHl _ | .setBHl _ => fun s => [s.hl]
  | .ldABc => fun s => [s.bc]
  | .ldADe => fun s => [s.de]
  | .ldAA16 addr => fun _ => [addr]
  | .ldhAA8 n => fun _ => [highPage n]
  | .ldAC => fun s => [highPage s.c]
  | .pop _ | .popAf | .ret | .reti => fun s => [s.sp, s.sp + 1]
  | .retCc cc => fun s => if s.cond cc then [s.sp, s.sp + 1] else []
  | .prefixCb => fun s => [s.pc]
  | .ldRR _ _ | .ldHlR _ | .ldRD8 _ _ | .ldHlD8 _ | .ldBcA | .ldDeA | .ldA16A _ | .ldhA8A _
  | .ldCA | .ldHlIncA | .ldHlDecA | .ldRpD16 _ _ | .ldA16Sp _ | .ldSpHl | .ldHlSpE _ | .push _
  | .pushAf | .addAR _ | .addAD8 _ | .adcAR _ | .adcAD8 _ | .subR _ | .subD8 _ | .sbcAR _
  | .sbcAD8 _ | .andR _ | .andD8 _ | .xorR _ | .xorD8 _ | .orR _ | .orD8 _ | .cpR _ | .cpD8 _
  | .incR _ | .decR _ | .daa | .cpl | .scf | .ccf | .incRp _ | .decRp _ | .addHlRp _ | .addSpE _
  | .rlca | .rrca | .rla | .rra | .rlcR _ | .rrcR _ | .rlR _ | .rrR _ | .slaR _ | .sraR _
  | .swapR _ | .srlR _ | .bitBR _ _ | .resBR _ _ | .setBR _ _ | .jpA16 _ | .jpCcA16 _ _ | .jpHl
  | .jrE _ | .jrCcE _ _ | .callA16 _ | .callCcA16 _ _ | .rstT _ | .nop | .halt | .stop _ | .di
  | .ei | .illegalD3 | .illegalDB | .illegalDD | .illegalE3 | .illegalE4 | .illegalEB | .illegalEC
  | .illegalED | .illegalF4 | .illegalFC | .illegalFD => fun _ => []

/-- The addresses an instruction stores to, with the expressions its meaning uses (20_memory.md R61, R86).
A conditional call stores only when taken (R327). -/
def Instr.stores : Instr → State → List Word
  | .ldHlR _ | .ldHlD8 _ | .ldHlIncA | .ldHlDecA | .incHl | .decHl | .rlcHl | .rrcHl | .rlHl
  | .rrHl | .slaHl | .sraHl | .swapHl | .srlHl | .resBHl _ | .setBHl _ => fun s => [s.hl]
  | .ldBcA => fun s => [s.bc]
  | .ldDeA => fun s => [s.de]
  | .ldA16A addr => fun _ => [addr]
  | .ldhA8A n => fun _ => [highPage n]
  | .ldCA => fun s => [highPage s.c]
  | .ldA16Sp addr => fun _ => [addr, addr + 1]
  | .push _ | .pushAf | .callA16 _ | .rstT _ => fun s => [s.sp - 1, s.sp - 1 - 1]
  | .callCcA16 cc _ => fun s => if s.cond cc then [s.sp - 1, s.sp - 1 - 1] else []
  | .ldRR _ _ | .ldRHl _ | .ldRD8 _ _ | .ldABc | .ldADe | .ldAA16 _ | .ldhAA8 _ | .ldAC
  | .ldAHlInc | .ldAHlDec | .ldRpD16 _ _ | .ldSpHl | .ldHlSpE _ | .pop _ | .popAf | .addAR _
  | .addAHl | .addAD8 _ | .adcAR _ | .adcAHl | .adcAD8 _ | .subR _ | .subHl | .subD8 _ | .sbcAR _
  | .sbcAHl | .sbcAD8 _ | .andR _ | .andHl | .andD8 _ | .xorR _ | .xorHl | .xorD8 _ | .orR _
  | .orHl | .orD8 _ | .cpR _ | .cpHl | .cpD8 _ | .incR _ | .decR _ | .daa | .cpl | .scf | .ccf
  | .incRp _ | .decRp _ | .addHlRp _ | .addSpE _ | .rlca | .rrca | .rla | .rra | .rlcR _ | .rrcR _
  | .rlR _ | .rrR _ | .slaR _ | .sraR _ | .swapR _ | .srlR _ | .bitBR _ _ | .bitBHl _ | .resBR _ _
  | .setBR _ _ | .jpA16 _ | .jpCcA16 _ _ | .jpHl | .jrE _ | .jrCcE _ _ | .ret | .reti | .retCc _
  | .nop | .prefixCb | .halt | .stop _ | .di | .ei | .illegalD3 | .illegalDB | .illegalDD
  | .illegalE3 | .illegalE4 | .illegalEB | .illegalEC | .illegalED | .illegalF4 | .illegalFC
  | .illegalFD => fun _ => []

/-- The 8-bit registers an instruction may write, F apart (each instruction's own rule). -/
def Instr.destRegs : Instr → List Reg8
  | .ldRR dst _ | .ldRHl dst | .ldRD8 dst _ => [dst]
  | .incR r | .decR r | .rlcR r | .rrcR r | .rlR r | .rrR r
  | .slaR r | .sraR r | .swapR r | .srlR r | .resBR _ r | .setBR _ r => [r]
  | .ldABc | .ldADe | .ldAA16 _ | .ldhAA8 _ | .ldAC | .popAf | .addAR _ | .adcAR _ | .subR _
  | .sbcAR _ | .andR _ | .xorR _ | .orR _ | .addAHl | .adcAHl | .subHl | .sbcAHl | .andHl
  | .xorHl | .orHl | .addAD8 _ | .adcAD8 _ | .subD8 _ | .sbcAD8 _ | .andD8 _ | .xorD8 _
  | .orD8 _ | .daa | .cpl | .rlca | .rrca | .rla | .rra => [.a]
  | .ldAHlInc | .ldAHlDec => [.a, .h, .l]
  | .ldHlIncA | .ldHlDecA | .ldHlSpE _ | .addHlRp _ => [.h, .l]
  | .ldRpD16 rp _ | .incRp rp | .decRp rp => rp.halves
  | .pop rp => rp.halves
  | .ldHlR _ | .ldHlD8 _ | .ldBcA | .ldDeA | .ldA16A _ | .ldhA8A _ | .ldCA | .ldA16Sp _ | .ldSpHl
  | .push _ | .pushAf | .cpR _ | .cpHl | .cpD8 _ | .incHl | .decHl | .scf | .ccf | .addSpE _
  | .rlcHl | .rrcHl | .rlHl | .rrHl | .slaHl | .sraHl | .swapHl | .srlHl | .bitBR _ _ | .bitBHl _
  | .resBHl _ | .setBHl _ | .jpA16 _ | .jpCcA16 _ _ | .jpHl | .jrE _ | .jrCcE _ _ | .callA16 _
  | .callCcA16 _ _ | .ret | .reti | .retCc _ | .rstT _ | .nop | .prefixCb | .halt | .stop _ | .di
  | .ei | .illegalD3 | .illegalDB | .illegalDD | .illegalE3 | .illegalE4 | .illegalEB | .illegalEC
  | .illegalED | .illegalF4 | .illegalFC | .illegalFD => []

/-- The instructions that may write SP (R24). -/
def Instr.writesSp : Instr → Bool
  | .ldRpD16 rp _ | .incRp rp | .decRp rp => rp == .sp
  | .ldSpHl | .addSpE _ | .push _ | .pop _ | .pushAf | .popAf | .callA16 _ | .callCcA16 _ _
  | .ret | .reti | .retCc _ | .rstT _ => true
  | .ldRR _ _ | .ldRHl _ | .ldHlR _ | .ldRD8 _ _ | .ldHlD8 _ | .ldABc | .ldADe | .ldBcA | .ldDeA
  | .ldAA16 _ | .ldA16A _ | .ldhAA8 _ | .ldhA8A _ | .ldAC | .ldCA | .ldAHlInc | .ldAHlDec
  | .ldHlIncA | .ldHlDecA | .ldA16Sp _ | .ldHlSpE _ | .addAR _ | .addAHl | .addAD8 _ | .adcAR _
  | .adcAHl | .adcAD8 _ | .subR _ | .subHl | .subD8 _ | .sbcAR _ | .sbcAHl | .sbcAD8 _ | .andR _
  | .andHl | .andD8 _ | .xorR _ | .xorHl | .xorD8 _ | .orR _ | .orHl | .orD8 _ | .cpR _ | .cpHl
  | .cpD8 _ | .incR _ | .incHl | .decR _ | .decHl | .daa | .cpl | .scf | .ccf | .addHlRp _ | .rlca
  | .rrca | .rla | .rra | .rlcR _ | .rlcHl | .rrcR _ | .rrcHl | .rlR _ | .rlHl | .rrR _ | .rrHl
  | .slaR _ | .slaHl | .sraR _ | .sraHl | .swapR _ | .swapHl | .srlR _ | .srlHl | .bitBR _ _
  | .bitBHl _ | .resBR _ _ | .resBHl _ | .setBR _ _ | .setBHl _ | .jpA16 _ | .jpCcA16 _ _ | .jpHl
  | .jrE _ | .jrCcE _ _ | .nop | .prefixCb | .halt | .stop _ | .di | .ei | .illegalD3 | .illegalDB
  | .illegalDD | .illegalE3 | .illegalE4 | .illegalEB | .illegalEC | .illegalED | .illegalF4
  | .illegalFC | .illegalFD => false

/-- The instructions that may write PC other than by fetching (45_control_transfer.md); the entry 0xCB
fetches its second opcode (R102). -/
def Instr.writesPc : Instr → Bool
  | .jpA16 _ | .jpCcA16 _ _ | .jpHl | .jrE _ | .jrCcE _ _ | .callA16 _ | .callCcA16 _ _ | .ret
  | .reti | .retCc _ | .rstT _ | .prefixCb => true
  | .ldRR _ _ | .ldRHl _ | .ldHlR _ | .ldRD8 _ _ | .ldHlD8 _ | .ldABc | .ldADe | .ldBcA | .ldDeA
  | .ldAA16 _ | .ldA16A _ | .ldhAA8 _ | .ldhA8A _ | .ldAC | .ldCA | .ldAHlInc | .ldAHlDec
  | .ldHlIncA | .ldHlDecA | .ldRpD16 _ _ | .ldA16Sp _ | .ldSpHl | .ldHlSpE _ | .push _ | .pop _
  | .pushAf | .popAf | .addAR _ | .addAHl | .addAD8 _ | .adcAR _ | .adcAHl | .adcAD8 _ | .subR _
  | .subHl | .subD8 _ | .sbcAR _ | .sbcAHl | .sbcAD8 _ | .andR _ | .andHl | .andD8 _ | .xorR _
  | .xorHl | .xorD8 _ | .orR _ | .orHl | .orD8 _ | .cpR _ | .cpHl | .cpD8 _ | .incR _ | .incHl
  | .decR _ | .decHl | .daa | .cpl | .scf | .ccf | .incRp _ | .decRp _ | .addHlRp _ | .addSpE _
  | .rlca | .rrca | .rla | .rra | .rlcR _ | .rlcHl | .rrcR _ | .rrcHl | .rlR _ | .rlHl | .rrR _
  | .rrHl | .slaR _ | .slaHl | .sraR _ | .sraHl | .swapR _ | .swapHl | .srlR _ | .srlHl
  | .bitBR _ _ | .bitBHl _ | .resBR _ _ | .resBHl _ | .setBR _ _ | .setBHl _ | .nop | .halt
  | .stop _ | .di | .ei | .illegalD3 | .illegalDB | .illegalDD | .illegalE3 | .illegalE4
  | .illegalEB | .illegalEC | .illegalED | .illegalF4 | .illegalFC | .illegalFD => false

/-- The flags an instruction may write, as a record of Booleans (R27 and each instruction's *Flags* line). -/
def Instr.writesFlag : Instr → Flags
  | .addAR _ | .adcAR _ | .subR _ | .sbcAR _ | .andR _ | .xorR _ | .orR _ | .cpR _ | .addAHl
  | .adcAHl | .subHl | .sbcAHl | .andHl | .xorHl | .orHl | .cpHl | .addAD8 _ | .adcAD8 _
  | .subD8 _ | .sbcAD8 _ | .andD8 _ | .xorD8 _ | .orD8 _ | .cpD8 _ | .ldHlSpE _ | .addSpE _
  | .popAf | .rlca | .rrca | .rla | .rra | .rlcR _ | .rrcR _ | .rlR _ | .rrR _ | .slaR _
  | .sraR _ | .swapR _ | .srlR _ | .rlcHl | .rrcHl | .rlHl | .rrHl | .slaHl | .sraHl | .swapHl
  | .srlHl | .prefixCb => ⟨true, true, true, true⟩
  | .incR _ | .incHl | .decR _ | .decHl | .bitBR _ _ | .bitBHl _ => ⟨true, true, true, false⟩
  | .daa => ⟨true, false, true, true⟩
  | .cpl => ⟨false, true, true, false⟩
  | .scf | .ccf | .addHlRp _ => ⟨false, true, true, true⟩
  | .ldRR _ _ | .ldRHl _ | .ldHlR _ | .ldRD8 _ _ | .ldHlD8 _ | .ldABc | .ldADe | .ldBcA | .ldDeA
  | .ldAA16 _ | .ldA16A _ | .ldhAA8 _ | .ldhA8A _ | .ldAC | .ldCA | .ldAHlInc | .ldAHlDec
  | .ldHlIncA | .ldHlDecA | .ldRpD16 _ _ | .ldA16Sp _ | .ldSpHl | .push _ | .pop _ | .pushAf
  | .incRp _ | .decRp _ | .resBR _ _ | .resBHl _ | .setBR _ _ | .setBHl _ | .jpA16 _
  | .jpCcA16 _ _ | .jpHl | .jrE _ | .jrCcE _ _ | .callA16 _ | .callCcA16 _ _ | .ret | .reti
  | .retCc _ | .rstT _ | .nop | .halt | .stop _ | .di | .ei | .illegalD3 | .illegalDB | .illegalDD
  | .illegalE3 | .illegalE4 | .illegalEB | .illegalEC | .illegalED | .illegalF4 | .illegalFC
  | .illegalFD => ⟨false, false, false, false⟩

end Sys2Proof
end

