-- ==== Sys2Proof/Safety.lean ====
section
/-! DEFINITION. What a claim about the running machine is stated in: the invariants that every step
keeps (20_memory.md rule R76, 48_priority_queue_scheduler.md rules R372
and R374), the three ways a bus access ends, the relation of an instruction to its bytes, and the
arithmetic of the rules written on numbers. -/

namespace Sys2Proof.Machine

/-- Storage and device states are in canonical form, so that equal contents are equal data (R20, R89). -/
abbrev State.canonical (s : State) : Prop := s.mem.wf = true ∧ s.devices.wf = true

/-- The queue is a heap of at most PQ_CAP events (R372, R374). -/
def State.queueOk (s : State) : Prop :=
  Queue.heapOrdered Event.lower s.queue = true ∧ s.queue.length ≤ s.cfg.pqCap

/-- The CPU holds the bus lock between steps only if a fault ended its Interrupt-Service (R76, R414). -/
def State.lockOk (s : State) : Prop := s.lock = some .cpu → s.fault ≠ none

/-- The environment makes no move of its own and nothing keeps the CPU from a step: no fault, not stopped, and
the lock free or its own (R40). -/
abbrev State.active (s : State) : Prop :=
  s.inputs = [] ∧ s.freeRun = none ∧ s.fault = none ∧ s.stopped = false ∧ (s.lock = none ∨ s.lock = some .cpu)

/-- The next step is a Normal-Dispatch of the bytes at PC: the CPU steps, is not halted, and no request is
to be serviced (R40). -/
abbrev State.dispatches (s : State) : Prop :=
  s.active ∧ s.halted = false ∧ s.getTop s.ime = none

/-- A bus read of `a` answers `v` and changes nothing. -/
abbrev State.reads (s : State) (a : Word) (v : Byte) : Prop :=
  s.peek a = some v ∧ s.quietAt a = true

/-- Bus reads from `a` on, in ascending order, answer these bytes and change nothing. -/
def State.holds (s : State) (a : Word) : List Byte → Prop
  | [] => True
  | v :: vs => s.reads a v ∧ s.holds (a + 1) vs

/-- The fault latch holds `k` and nothing else has changed (R12, R36). -/
def State.latched (s : State) (k : Fault) : State := { s with fault := some k }

/-! ## Runs -/

/-- Move `m` takes the machine from `s` to `t`; after a fault nothing moves (R14, R15). -/
def Makes (m : Move) (s t : State) : Prop :=
  if s.fault = none then runMove m s = .next t else t = s

/-- An infinite run (R15): from a reset state of any parameters, one move of the environment's choice after
the other. A finite run is a beginning of one. -/
structure IsRun (moves : Nat → Move) (states : Nat → State) : Prop where
  start : ∃ r p, states 0 = boot r p
  next : ∀ n, Makes (moves n) (states n) (states (n + 1))

/-! ## The three ways a bus access ends -/

/-- Outcome `o` of an operation that in state `s` begins with `MemRead(a, 1)`: the fault of R68 when no
connection claims `a`, the raised state when the device fails, and what `K` says of the byte and the
state after the read otherwise. -/
def ReadsThen (s : State) (a : Word) (o : Out) (K : Byte → State → Prop) : Prop :=
  (decodeAddr s.bus a = none → o = .next (s.latched (.unmappedAddress a .read))) ∧
  (∀ t, busRead a s = .raised t → o = .next t) ∧
  (∀ v t, busRead a s = .ok v t → K v t)

/-- Outcome `o` of an operation that in state `s` begins with `MemWrite(a, 1, v)` (R69). -/
def WritesThen (s : State) (a : Word) (v : Byte) (o : Out) (K : State → Prop) : Prop :=
  (decodeAddr s.bus a = none → o = .next (s.latched (.unmappedAddress a .write))) ∧
  (∀ t, busWrite a v s = .raised t → o = .next t) ∧
  (∀ t, busWrite a v s = .ok () t → K t)

/-- Outcome `o` of an operation that in state `s` begins with `push16(v)`: SP goes down before each byte,
the high byte is written first (R176); a write that faults leaves SP as its own decrement left it. -/
def PushesThen (s : State) (v : Word) (o : Out) (K : State → Prop) : Prop :=
  WritesThen { s with sp := s.sp - 1 } (s.sp - 1) (v.extractLsb' 8 8) o fun t =>
    WritesThen { t with sp := s.sp - 2 } (s.sp - 2) (v.extractLsb' 0 8) o K

/-- Outcome `o` of an operation that in state `s` begins with `pop16()`: low byte first, SP goes up after
each byte (R177). `K` gets the high byte, the low byte and the state. -/
def PopsThen (s : State) (o : Out) (K : Byte → Byte → State → Prop) : Prop :=
  ReadsThen s s.sp o fun lo t =>
    ReadsThen { t with sp := s.sp + 1 } (s.sp + 1) o fun hi u =>
      K hi lo { u with sp := s.sp + 2 }

/-! ## Encodings -/

/-- The instruction's bytes are `bs`: the encoder writes them, and the decoder reads the instruction from
them whatever follows. -/
def Encodes (i : Instr) (bs : List Byte) : Prop :=
  encode i = bs ∧ ∀ rest, decode (bs ++ rest) = .ok (i, rest)

/-- The eleven first bytes with no defined instruction (R109), with the row of each. -/
def undefinedRows : List (Byte × Instr) :=
  [(0xD3, .illegalD3), (0xDB, .illegalDB), (0xDD, .illegalDD), (0xE3, .illegalE3), (0xE4, .illegalE4),
   (0xEB, .illegalEB), (0xEC, .illegalEC), (0xED, .illegalED), (0xF4, .illegalF4), (0xFC, .illegalFC),
   (0xFD, .illegalFD)]

/-! ## The arithmetic of the rules, on numbers -/

/-- A Boolean as the number 0 or 1. -/
def bitNat (v : Bool) : Nat := if v then 1 else 0

/-- `t` is `s` after `alu_add(A, b, cin)` with write-back and `tick(n)`: the nine-bit sum is the new A with
C above it, the five-bit sum of the low nibbles is A's low nibble with H above it (R191, R197). -/
def AddsTo (s t : State) (b : Byte) (cin : Bool) (n : Nat) : Prop :=
  t.a.toNat + 256 * bitNat t.f.c = s.a.toNat + b.toNat + bitNat cin ∧
  t.a.toNat % 16 + 16 * bitNat t.f.h = s.a.toNat % 16 + b.toNat % 16 + bitNat cin ∧
  (t.f.z = true ↔ t.a.toNat = 0) ∧ t.f.n = false ∧
  t = { s with a := t.a, f := t.f, cyc := s.cyc + BitVec.ofNat 64 n }

/-- `r` and `f` are what `alu_sub(a, b, cin)` gives: C and H are the borrows (R192). -/
def Differs (a b : Byte) (cin : Bool) (r : Byte) (f : Flags) : Prop :=
  r.toNat + b.toNat + bitNat cin = a.toNat + 256 * bitNat f.c ∧
  r.toNat % 16 + b.toNat % 16 + bitNat cin = a.toNat % 16 + 16 * bitNat f.h ∧
  (f.z = true ↔ r.toNat = 0) ∧ f.n = true

/-- `t` is `s` after `alu_sub(A, b, cin)` with write-back and `tick(n)` (R192, R197). -/
def SubsFrom (s t : State) (b : Byte) (cin : Bool) (n : Nat) : Prop :=
  Differs s.a b cin t.a t.f ∧
  t = { s with a := t.a, f := t.f, cyc := s.cyc + BitVec.ofNat 64 n }

/-- `t` is `s` after CP with `b` and `tick(n)`: the flags of a subtraction, A kept (R196). -/
def Compares (s t : State) (b : Byte) (n : Nat) : Prop :=
  (∃ r, Differs s.a b false r t.f) ∧
  (t.f.z = true ↔ s.a = b) ∧ (t.f.c = true ↔ s.a.toNat < b.toNat) ∧
  (t.f.h = true ↔ s.a.toNat % 16 < b.toNat % 16) ∧
  t = { s with f := t.f, cyc := s.cyc + BitVec.ofNat 64 n }

/-- `w` and the carry of the eight one-bit functions, as numbers (R275). -/
def rotNat : Rot → Nat → Nat → Nat × Nat
  | .rlc, v, _ => (2 * v % 256 + v / 128, v / 128)
  | .rrc, v, _ => (v / 2 + 128 * (v % 2), v % 2)
  | .rl, v, cin => (2 * v % 256 + cin, v / 128)
  | .rr, v, cin => (v / 2 + 128 * cin, v % 2)
  | .sla, v, _ => (2 * v % 256, v / 128)
  | .sra, v, _ => (v / 2 + 128 * (v / 128), v % 2)
  | .swap, v, _ => (16 * (v % 16) + v / 16, 0)
  | .srl, v, _ => (v / 2, v % 2)

/-- `w` and `f` are the result and the flags of a rotate of `v`, Z apart (R275). -/
def Rotates (k : Rot) (v : Byte) (cin : Bool) (w : Byte) (f : Flags) : Prop :=
  w.toNat = (rotNat k v.toNat (bitNat cin)).1 ∧ bitNat f.c = (rotNat k v.toNat (bitNat cin)).2 ∧
  f.n = false ∧ f.h = false

/-- A number from 0 to 99 in two decimal digits. -/
def bcd (n : Nat) : Byte := BitVec.ofNat 8 (16 * (n / 10) + n % 10)

/-! ## The queue -/

/-- A strict weak order, as R371 requires of a comparator. -/
structure StrictWeak {α : Type} (lower : α → α → Bool) : Prop where
  irrefl : ∀ x, lower x x = false
  trans : ∀ x y z, lower x y = true → lower y z = true → lower x z = true
  incomp : ∀ x y z, lower x y = false → lower y z = false → lower x z = false

/-- Schedule events one after the other (R383). -/
def scheduleAll (p : Config) : List Event → List Event → Except Fault (List Event)
  | [], q => .ok q
  | e :: es, q =>
    match schedule p e q with
    | .ok q => scheduleAll p es q
    | .error k => .error k

/-- Call `execute_next` a number of times: the events in the order in which they leave (R385). -/
def drain : Nat → List Event → Except Fault (List Event)
  | 0, _ => .ok []
  | n + 1, q =>
    match executeNext q with
    | .error k => .error k
    | .ok (e, q) =>
      match drain n q with
      | .error k => .error k
      | .ok es => .ok (e :: es)

end Sys2Proof.Machine
end

