-- ==== Sys2Proof/Certificates/Slice0/Obligations.lean ====
section
/-! DEFINITION. The statements for the provers, in the order of OBLIGATIONS.json. Each docstring names the
rules of spec/ the statement formalises. -/

open Sys2Proof Sys2Proof.Machine

/-- O1 (R100, R103, R104, R105, R106, R107, R108, R111, R112, R113, R114, R115). For every
well-formed instruction, with every operand at every value, the decoder reads it back from the
encoder's bytes; and whatever bytes follow are left over, except for the base-table entry 0xCB,
after which the next byte is a second opcode. -/
def Obligations.DecodeOfEncode : Prop :=
  ∀ i : Instr, i.wf = true →
    decode (encode i) = .ok (i, []) ∧
    (i ≠ .prefixCb → ∀ rest : List Byte, decode (encode i ++ rest) = .ok (i, rest))

/-- O2 (R109, R116, R117). Whenever the decoder reads an instruction from a byte list, the
instruction is well formed and its encoding followed by the left-over bytes is that byte list: no
two byte sequences decode to one instruction, so no bit of an encoding is dropped. -/
def Obligations.EncodeOfDecode : Prop :=
  ∀ (bytes rest : List Byte) (i : Instr),
    decode bytes = .ok (i, rest) → i.wf = true ∧ encode i ++ rest = bytes

/-- O3 (R109, R141, R350). Three bytes always decode; exactly the eleven undefined first bytes
decode to their ILLEGAL rows; every second byte after 0xCB decodes to a defined instruction; 244
first bytes are neither undefined nor the prefix; and LD r,r behaves as NOP (the spec infers this
last clause in R109 from R141). -/
def Obligations.DecodingIsTotal : Prop :=
  (∀ op n1 n2 : Byte, ∃ i rest, decode [op, n1, n2] = .ok (i, rest)) ∧
  (∀ (op : Byte) (i : Instr) (rest : List Byte), (op, i) ∈ undefinedRows →
    decode (op :: rest) = .ok (i, rest)) ∧
  (∀ (op op' : Byte) (i : Instr) (rest rest' : List Byte), (op', i) ∈ undefinedRows →
    decode (op :: rest) = .ok (i, rest') → op = op') ∧
  (∀ (op2 : Byte) (rest : List Byte), ∃ i, decode (0xCB :: op2 :: rest) = .ok (i, rest) ∧
    i ≠ .prefixCb ∧ ∀ row ∈ undefinedRows, row.2 ≠ i) ∧
  ((List.range 256).filter fun n =>
    decide (n ≠ 0xCB) && undefinedRows.all fun row => decide (row.1.toNat ≠ n)).length = 244 ∧
  (∀ (r : Reg8) (s : State), exec (.ldRR r r) s = exec .nop s)

/-- O4 (R111, R112, R113, R114, R115). For each family of the opcode table the bytes of a worked
example of its rules decode to that instruction. -/
def Obligations.WrittenWordsDecode : Prop :=
  decode [0x41] = .ok (.ldRR .b .c, []) ∧
  decode [0x36, 0x99] = .ok (.ldHlD8 0x99, []) ∧
  decode [0xFA, 0x0F, 0xFF] = .ok (.ldAA16 0xFF0F, []) ∧
  decode [0x21, 0x34, 0x12] = .ok (.ldRpD16 .hl 0x1234, []) ∧
  decode [0x08, 0x00, 0xC1] = .ok (.ldA16Sp 0xC100, []) ∧
  decode [0xD1] = .ok (.pop .de, []) ∧
  decode [0x93] = .ok (.subR .e, []) ∧
  decode [0xCE, 0x3B] = .ok (.adcAD8 0x3B, []) ∧
  decode [0xAF] = .ok (.xorR .a, []) ∧
  decode [0x2D] = .ok (.decR .l, []) ∧
  decode [0x09] = .ok (.addHlRp .bc, []) ∧
  decode [0xE8, 0x02] = .ok (.addSpE 0x02, []) ∧
  decode [0x17] = .ok (.rla, []) ∧
  decode [0xCB, 0x15] = .ok (.rlR .l, []) ∧
  decode [0xCB, 0x7F] = .ok (.bitBR 7 .a, []) ∧
  decode [0xCB, 0x9E] = .ok (.resBHl 3, []) ∧
  decode [0xC3, 0x50, 0x01] = .ok (.jpA16 0x0150, []) ∧
  decode [0x20, 0xFB] = .ok (.jrCcE .nz 0xFB, []) ∧
  decode [0xDC, 0x00, 0x20] = .ok (.callCcA16 .c 0x2000, []) ∧
  decode [0xEF] = .ok (.rstT 5, []) ∧
  decode [0x76] = .ok (.halt, []) ∧
  decode [0xDD] = .ok (.illegalDD, [])

/-- O5 (R67). A connection is decoded for an address exactly when it stands in the list, claims the
address, and none before it does; nothing is decoded exactly when no connection claims it. The
decoder's only inputs are the list and the address. -/
def Obligations.FirstMatchDecoder : Prop :=
  ∀ (bus : List Connection) (a : Word),
    (∀ c, decodeAddr bus a = some c ↔
      c.startAddr ≤ a ∧ a ≤ c.endAddr ∧
        ∃ before after, bus = before ++ c :: after ∧
          ∀ d ∈ before, ¬ (d.startAddr ≤ a ∧ a ≤ d.endAddr)) ∧
    (decodeAddr bus a = none ↔ ∀ d ∈ bus, ¬ (d.startAddr ≤ a ∧ a ≤ d.endAddr))

/-- O6 (R68, R69, R70). BusRead and BusWrite raise UnmappedAddress with the address and the
direction, changing nothing else, when no connection is decoded; otherwise they are exactly the one
call of the decoded connection's read or write entry point with the full address. -/
def Obligations.BusOperations : Prop :=
  ∀ (s : State) (a : Word) (v : Byte),
    (decodeAddr s.bus a = none →
      busRead a s = .raised { s with fault := some (.unmappedAddress a .read) } ∧
      busWrite a v s = .raised { s with fault := some (.unmappedAddress a .write) }) ∧
    (∀ c, decodeAddr s.bus a = some c →
      busRead a s = c.read a s ∧ busWrite a v s = c.write a v s)

/-- O7 (R62, R71, R72). A connection whose entry points are the platform's own (log entry 5) answers
the byte its read gives in its owner's state at the full address, moves that state, of a failing
access too, as the entry point says and changes nothing else, and raises Abort(DeviceFailure, addr)
on a failing status; read and write fail independently. One owner's state is told from every
other's. Every behaviour of read and write on finitely many owner states is some such connection's.
A device that always fails raises on read and write and changes nothing else; an auto-clearing
register's read gives the byte and clears it; a read of any other port changes nothing. -/
def Obligations.DeviceEntryPoints : Prop :=
  (∀ (s : State) (a : Word) (v : Byte) (c : Connection), decodeAddr s.bus a = some c →
    let q := s.device c.owner
    (∀ p, c.port = .program p →
      busRead a s =
        (if p.read.failing q a 0x00 = true then
          .raised ((s.setDevice c.owner (p.read.after q a 0x00)).latched (.deviceFailure a))
        else .ok (p.read.reply q a 0x00) (s.setDevice c.owner (p.read.after q a 0x00))) ∧
      busWrite a v s =
        (if p.write.failing q a v = true then
          .raised ((s.setDevice c.owner (p.write.after q a v)).latched (.deviceFailure a))
        else .ok () (s.setDevice c.owner (p.write.after q a v)))) ∧
    (c.port = .failing →
      busRead a s = .raised { s with fault := some (.deviceFailure a) } ∧
      busWrite a v s = .raised { s with fault := some (.deviceFailure a) }) ∧
    (c.port = .clearOnRead → ∃ p, s.placeOf a = some p ∧
      busRead a s = .ok (s.at p) (s.put p 0x00) ∧ busWrite a v s = .ok () (s.put p v)) ∧
    (c.port ≠ .clearOnRead → (∀ p, c.port ≠ .program p) → ∀ w t, busRead a s = .ok w t → t = s)) ∧
  (∀ (s : State) (o : Owner) (q : Nat),
    s.setDevice o q = { s with devices := (s.setDevice o q).devices } ∧
    (∀ o', o' ≠ o → (s.setDevice o q).device o' = s.device o') ∧
    (s.devices.wf = true → (s.setDevice o q).device o = q)) ∧
  (∀ (n : Nat) (readFails : Nat → Word → Bool) (readValue : Nat → Word → Byte)
    (readNext : Nat → Word → Nat) (writeFails : Nat → Word → Byte → Bool)
    (writeNext : Nat → Word → Byte → Nat), ∃ p : DeviceProgram, ∀ q a v, q < n →
      p.read.failing q a 0x00 = readFails q a ∧ p.read.reply q a 0x00 = readValue q a ∧
      p.read.after q a 0x00 = readNext q a ∧
      p.write.failing q a v = writeFails q a v ∧ p.write.after q a v = writeNext q a v)

/-- O8 (R81, R82, R83). A read of 0xC000+k or 0xE000+k gives byte k of one array and changes
nothing; a write there changes byte k of it and nothing else; no other address names the byte of an
address from 0xDE00 to 0xDFFF; and the array, like all storage in canonical form, gives back at k
what was last written at k. A read of an address up to 0x7FFF gives byte a of the ROM array and a
write there succeeds and changes nothing; a read of 0xFF80+k, k below 127, gives byte k of the
high-RAM array and a write changes that byte and nothing else. -/
def Obligations.DefaultMemoryDevices : Prop :=
  ∀ (s : State) (v : Byte), s.bus = defaultMap →
    (∀ k : Nat, k < 8192 →
      busRead (BitVec.ofNat 16 (0xC000 + k)) s = .ok (s.mem.read (Owner.wram.base + k)) s ∧
      busWrite (BitVec.ofNat 16 (0xC000 + k)) v s =
        .ok () { s with mem := s.mem.write (Owner.wram.base + k) v }) ∧
    (∀ k : Nat, k ≤ 0x1DFF →
      busRead (BitVec.ofNat 16 (0xE000 + k)) s = .ok (s.mem.read (Owner.wram.base + k)) s ∧
      busWrite (BitVec.ofNat 16 (0xE000 + k)) v s =
        .ok () { s with mem := s.mem.write (Owner.wram.base + k) v }) ∧
    (∀ a b : Word, 0xDE00 ≤ a → a ≤ 0xDFFF → s.placeOf b = s.placeOf a → b = a) ∧
    (s.mem.wf = true → ∀ j k : Nat,
      (s.mem.write j v).read k = if k = j then v else s.mem.read k) ∧
    (∀ a : Word, a ≤ 0x7FFF →
      busRead a s = .ok (s.mem.read (Owner.cart.base + a.toNat)) s ∧
      busWrite a v s = .ok () s) ∧
    (∀ k : Nat, k < 127 →
      busRead (BitVec.ofNat 16 (0xFF80 + k)) s = .ok (s.mem.read (Owner.hram.base + k)) s ∧
      busWrite (BitVec.ofNat 16 (0xFF80 + k)) v s =
        .ok () { s with mem := s.mem.write (Owner.hram.base + k) v })

/-- O9 (R422). Reads and writes of 0x8000 to 0xBFFF, 0xFE00 to 0xFF0E and 0xFF10 to 0xFF7F raise
UnmappedAddress; at every other address a read succeeds and changes nothing, and a write succeeds.
-/
def Obligations.DefaultMapHoles : Prop :=
  ∀ (s : State) (a : Word) (v : Byte), s.bus = defaultMap →
    ((0x8000 ≤ a ∧ a ≤ 0xBFFF) ∨ (0xFE00 ≤ a ∧ a ≤ 0xFF0E) ∨ (0xFF10 ≤ a ∧ a ≤ 0xFF7F) →
      busRead a s = .raised (s.latched (.unmappedAddress a .read)) ∧
      busWrite a v s = .raised (s.latched (.unmappedAddress a .write))) ∧
    (¬ ((0x8000 ≤ a ∧ a ≤ 0xBFFF) ∨ (0xFE00 ≤ a ∧ a ≤ 0xFF0E) ∨ (0xFF10 ≤ a ∧ a ≤ 0xFF7F)) →
      (∃ w, busRead a s = .ok w s) ∧ ∃ t, busWrite a v s = .ok () t)

/-- O10 (R67, R415). An IF connection called with 0xFF0F reads IF and writes all of IF and nothing
else, with any other address it raises AddressMismatch; the same for IE at 0xFFFF; and the default
map selects each for its own address only, so the mismatch is not reached there (the spec infers
this last clause in R415 from R67). -/
def Obligations.InterruptRegistersOnBus : Prop :=
  ∀ (s : State) (c : Connection) (a : Word) (v : Byte),
    (c.port = .ifReg →
      c.read 0xFF0F s = .ok s.ifl s ∧ c.write 0xFF0F v s = .ok () { s with ifl := v } ∧
      (a ≠ 0xFF0F → c.read a s = .raised { s with fault := some (.addressMismatch a) } ∧
        c.write a v s = .raised { s with fault := some (.addressMismatch a) })) ∧
    (c.port = .ieReg →
      c.read 0xFFFF s = .ok s.ie s ∧ c.write 0xFFFF v s = .ok () { s with ie := v } ∧
      (a ≠ 0xFFFF → c.read a s = .raised { s with fault := some (.addressMismatch a) } ∧
        c.write a v s = .raised { s with fault := some (.addressMismatch a) })) ∧
    (decodeAddr defaultMap a = some c → c.port = .ifReg → a = 0xFF0F) ∧
    (decodeAddr defaultMap a = some c → c.port = .ieReg → a = 0xFFFF) ∧
    (∃ d, decodeAddr defaultMap 0xFF0F = some d ∧ d.port = .ifReg) ∧
    (∃ d, decodeAddr defaultMap 0xFFFF = some d ∧ d.port = .ieReg)

/-- O11 (R65, R70, R89). After a successful bus write only the storage, the two interrupt registers
and the device states can differ; every address that names another place reads as before; and unless
the connection is ROM or the platform's own (DeviceEntryPoints says what those do), every address
that names the written place reads the written byte (storage being in canonical form). -/
def Obligations.BusWriteFrame : Prop :=
  ∀ (s t : State) (a : Word) (v : Byte), busWrite a v s = .ok () t →
    t = { s with mem := t.mem, ie := t.ie, ifl := t.ifl, devices := t.devices } ∧
    (∀ x, s.placeOf x ≠ s.placeOf a → t.peek x = s.peek x) ∧
    (∀ c, decodeAddr s.bus a = some c → c.port ≠ .rom → (∀ p, c.port ≠ .program p) →
      s.mem.wf = true →
      ∀ x, s.placeOf x = s.placeOf a → t.peek x = some v)

/-- O12 (R74, R75). A master's lock takes the lock when it is free or already that master's, and is
no move at all while another owner holds it (log entry 3, the model's choice: the waiting caller's
move is dropped and the reply says notEnabled); unlock frees the lock if that master holds it and
otherwise has no effect. Another master's bus access is made when the lock is free or its own and is
no move otherwise (the same choice); a CPU step while another owner holds the lock changes nothing;
and what a bus access itself does does not depend on the lock. -/
def Obligations.LockProtocol : Prop :=
  ∀ (s : State) (m : Nat) (a : Word) (v : Byte),
    ((s.lock = none ∨ s.lock = some (.dev m)) →
      runMove (.lock m) s = .next { s with lock := some (.dev m), reply := some .done }) ∧
    (¬ (s.lock = none ∨ s.lock = some (.dev m)) →
      runMove (.lock m) s = .next { s with reply := some .notEnabled }) ∧
    (s.lock = some (.dev m) →
      runMove (.unlock m) s = .next { s with lock := none, reply := some .done }) ∧
    (s.lock ≠ some (.dev m) → runMove (.unlock m) s = .next { s with reply := some .done }) ∧
    ((s.lock = none ∨ s.lock = some (.dev m)) →
      (∀ w t, busRead a s = .ok w t →
        runMove (.busRead m a) s = .next { t with reply := some (.byte w) }) ∧
      (∀ t, busWrite a v s = .ok () t →
        runMove (.busWrite m a v) s = .next { t with reply := some .done }) ∧
      (∀ t, busRead a s = .raised t →
        runMove (.busRead m a) s = .next { t with reply := t.fault.map .failed }) ∧
      (∀ t, busWrite a v s = .raised t →
        runMove (.busWrite m a v) s = .next { t with reply := t.fault.map .failed })) ∧
    (¬ (s.lock = none ∨ s.lock = some (.dev m)) →
      runMove (.busRead m a) s = .next { s with reply := some .notEnabled } ∧
      runMove (.busWrite m a v) s = .next { s with reply := some .notEnabled }) ∧
    (s.lock = some (.dev m) → cpuStep s = .next s) ∧
    (∀ (l : Option Master) (w : Byte) (t : State), busRead a s = .ok w t →
      busRead a { s with lock := l } = .ok w { t with lock := l }) ∧
    (∀ (l : Option Master) (t : State), busWrite a v s = .ok () t →
      busWrite a v { s with lock := l } = .ok () { t with lock := l })

/-- O13 (R63, R66, R452). register appends the connection at the end, or raises
CapacityExceeded(bus) with the list unchanged when N_DEV connections are present (or more, which no
list of the spec holds: log entry 20, the model's choice); it checks no overlap and no bounds.
Whatever the reset values and the platform, wiring a map that fits gives the reset state with
exactly that map; a longer one gives the faulted machine (log entry 21), which no step changes; and
no step ever changes the list. -/
def Obligations.BootWiring : Prop :=
  (∀ (c : Connection) (s : State),
    (s.bus.length < s.cfg.nDev → register c s = .ok () { s with bus := s.bus ++ [c] }) ∧
    (s.cfg.nDev ≤ s.bus.length →
      register c s = .raised { s with fault := some (.capacityExceeded .bus) })) ∧
  (∀ (r : Machine.ResetValues) (p : Platform),
    (p.map.length ≤ p.cfg.nDev → boot r p = State.resetWith r p) ∧
    (p.cfg.nDev < p.map.length →
      (boot r p).fault = some (.capacityExceeded .bus) ∧ step (boot r p) = .next (boot r p))) ∧
  (∀ s t : State, step s = .next t → t.bus = s.bus)

/-- O14 (R22). AF, BC, DE and HL read as high half times 256 plus low half; writing a pair writes
v[15:8] to the high half and v[7:0] to the low half (for F its top four bits, which are all it
holds) and nothing else; writing one of the seven registers of the 3-bit field changes that register
alone. -/
def Obligations.RegisterHalvesAndPairs : Prop :=
  ∀ (s : State) (v : Word) (r : Reg8) (x : Byte),
    s.af.toNat = s.a.toNat * 256 + s.f.toByte.toNat ∧
    s.bc.toNat = s.b.toNat * 256 + s.c.toNat ∧
    s.de.toNat = s.d.toNat * 256 + s.e.toNat ∧
    s.hl.toNat = s.h.toNat * 256 + s.l.toNat ∧
    ((s.setBc v).b.toNat = v.toNat / 256 ∧ (s.setBc v).c.toNat = v.toNat % 256 ∧
      s.setBc v = { s with b := (s.setBc v).b, c := (s.setBc v).c }) ∧
    ((s.setDe v).d.toNat = v.toNat / 256 ∧ (s.setDe v).e.toNat = v.toNat % 256 ∧
      s.setDe v = { s with d := (s.setDe v).d, e := (s.setDe v).e }) ∧
    ((s.setHl v).h.toNat = v.toNat / 256 ∧ (s.setHl v).l.toNat = v.toNat % 256 ∧
      s.setHl v = { s with h := (s.setHl v).h, l := (s.setHl v).l }) ∧
    ((s.setAf v).a.toNat = v.toNat / 256 ∧
      (s.setAf v).f.toByte.toNat = v.toNat % 256 / 16 * 16 ∧
      s.setAf v = { s with a := (s.setAf v).a, f := (s.setAf v).f }) ∧
    (∀ r', (s.setReg r x).reg r' = if r' = r then x else s.reg r') ∧
    s.setReg r x = { s with a := (s.setReg r x).a, b := (s.setReg r x).b, c := (s.setReg r x).c,
                            d := (s.setReg r x).d, e := (s.setReg r x).e, h := (s.setReg r x).h,
                            l := (s.setReg r x).l }

/-- O15 (R25, R26). In every state, reachable or not, bit 7 of F is fZ, bit 6 fN, bit 5 fH, bit 4
fC, and F[3:0] is 0. -/
def Obligations.FlagRegisterLayout : Prop :=
  ∀ f : Flags,
    f.toByte.toNat = 0x80 * bitNat f.z + 0x40 * bitNat f.n + 0x20 * bitNat f.h + 0x10 * bitNat f.c ∧
    f.toByte.getLsbD 7 = f.z ∧ f.toByte.getLsbD 6 = f.n ∧ f.toByte.getLsbD 5 = f.h ∧
    f.toByte.getLsbD 4 = f.c ∧ f.toByte.toNat % 16 = 0

/-- O16 (R7, R41, R450, R451). Reset takes RESET, the open parameters, the map, the storage image,
the devices' states and the environment's moves as arguments and gives every piece of state its
argument. With the default RESET every register, latch and the queue has the tabled value, and with
no move of the environment the next step is a Normal-Dispatch at 0x0100. The model's reset is the
instance with the defaults, with no cell and no device state listed and an environment that makes no
move (log entries 2, 3, 22 and 23, the model's choices). -/
def Obligations.ResetValues : Prop :=
  (∀ (r : Machine.ResetValues) (p : Platform),
    let s := State.resetWith r p
    s.a = r.a ∧ s.f = r.f ∧ s.b = r.b ∧ s.c = r.c ∧ s.d = r.d ∧ s.e = r.e ∧ s.h = r.h ∧ s.l = r.l ∧
    s.sp = r.sp ∧ s.pc = r.pc ∧ s.cyc = r.cyc ∧ s.ime = r.ime ∧ s.ie = r.ie ∧ s.ifl = r.ifl ∧
    s.halted = r.halted ∧ s.stopped = r.stopped ∧ s.fault = r.fault ∧ s.lock = r.lock ∧
    s.queue = r.queue ∧ s.bus = p.map ∧ s.mem = p.mem0 ∧ s.devices = p.devices0 ∧ s.cfg = p.cfg ∧
    s.inputs = p.inputs ∧ s.freeRun = p.freeRun) ∧
  (∀ p : Platform,
    let s := State.resetWith .default p
    s.af = 0x01B0 ∧ s.bc = 0x0013 ∧ s.de = 0x00D8 ∧ s.hl = 0x014D ∧ s.sp = 0xFFFE ∧
    s.pc = 0x0100 ∧ s.cyc = 0 ∧ s.ime = false ∧ s.ie = 0x00 ∧ s.ifl = 0x00 ∧
    s.halted = false ∧ s.stopped = false ∧ s.fault = none ∧ s.lock = none ∧ s.queue = [] ∧
    (p.inputs = [] → p.freeRun = none → s.dispatches)) ∧
  State.reset = State.resetWith .default Platform.default ∧
  Platform.default = ⟨Config.default, defaultMap, [], [], [], none⟩

/-- O17 (R13, R23, R24, R27, R28). For every instruction (the 0xCB entry is covered through the
instruction it runs) in every state: each 8-bit register that is not a destination, each flag the
table of flag writers does not give it, SP unless the rule or the stack mode writes it, and PC
unless it is a control transfer, are as before, also when the instruction ends in a fault. In
particular loads, 16-bit INC and DEC, PUSH, POP other than AF, jumps, calls, returns, RES, SET, NOP,
HALT, STOP, DI and EI leave all of F. -/
def Obligations.RegisterAndFlagFrame : Prop :=
  ∀ (i : Instr) (s t : State), i ≠ .prefixCb → exec i s = .next t →
    (∀ r, r ∉ i.destRegs → t.reg r = s.reg r) ∧
    (i.writesSp = false → t.sp = s.sp) ∧
    (i.writesPc = false → t.pc = s.pc) ∧
    (i.writesFlag.z = false → t.f.z = s.f.z) ∧ (i.writesFlag.n = false → t.f.n = s.f.n) ∧
    (i.writesFlag.h = false → t.f.h = s.f.h) ∧ (i.writesFlag.c = false → t.f.c = s.f.c)

/-- O18 (R61, R72, R86). For every instruction (the 0xCB entry is covered through the instruction it
runs) in every state: a place that no store address of the instruction names, and that no read
address names unless the read is quiet (not of an auto-clearing register nor of a device that a read
changes), holds what it held; so every address reads as before unless it names such a place. The
addresses are computed with the meanings' own expressions. -/
def Obligations.MemoryFrame : Prop :=
  ∀ (i : Instr) (s t : State), i ≠ .prefixCb → exec i s = .next t →
    (∀ p : Place, (∀ a ∈ i.stores s, s.placeOf a ≠ some p) →
      (∀ a ∈ i.loads s, s.quietAt a = true ∨ s.placeOf a ≠ some p) → t.content p = s.content p) ∧
    (∀ x : Word, (∀ a ∈ i.stores s, s.placeOf x ≠ s.placeOf a) →
      (∀ a ∈ i.loads s, s.quietAt a = true ∨ s.placeOf x ≠ s.placeOf a) → t.peek x = s.peek x)

/-- O19 (R31, R34, R35, R63, R76, R359, R389). Every instruction leaves the connection list, the
parameters, the lock and the queue (and the model's own inputs, free moves and reply); only DI, EI
and RETI change IME; only HALT changes halted; only STOP changes stopped; the fault latch is as
before or newly set. -/
def Obligations.ControlStateFrame : Prop :=
  ∀ (i : Instr) (s t : State), exec i s = .next t →
    t.bus = s.bus ∧ t.cfg = s.cfg ∧ t.lock = s.lock ∧ t.queue = s.queue ∧ t.inputs = s.inputs ∧
    t.freeRun = s.freeRun ∧ t.turn = s.turn ∧ t.reply = s.reply ∧
    (i ≠ .di → i ≠ .ei → i ≠ .reti → t.ime = s.ime) ∧
    (i ≠ .halt → t.halted = s.halted) ∧
    ((∀ pad, i ≠ .stop pad) → t.stopped = s.stopped) ∧
    (t.fault = s.fault ∨ ∃ k, t.fault = some k)

/-- O20 (R28, R40, R102). When the CPU is about to dispatch (no environment move, fault, stop, halt
or foreign lock, and no interrupt to service) and the bytes at PC, read in ascending order, decode
to an instruction, the step is exec of that instruction in the same state with PC after its last
byte. -/
def Obligations.StepRunsDecodedInstruction : Prop :=
  ∀ (s : State) (bytes : List Byte) (i : Instr),
    s.dispatches → decode bytes = .ok (i, []) → s.holds s.pc bytes →
      step s = exec i { s with pc := s.pc + BitVec.ofNat 16 bytes.length }

/-- O21 (R102). Normal-Dispatch fetches one opcode and runs its instruction. For 0xCB, with PC past
that byte, the entry fetches the second opcode, faulting as any fetch, and then is the secondary
instruction, which always answers a next state; the step runs both bytes at once with the cost of
the one instruction. -/
def Obligations.PrefixRunsSecondTable : Prop :=
  (∀ s : State,
    ReadsThen s s.pc (exec .prefixCb s) fun op2 t =>
      ∃ i u, decode [0xCB, op2] = .ok (i, []) ∧
        exec .prefixCb s = .next u ∧ exec i { t with pc := s.pc + 1 } = .next u) ∧
  (∀ (s : State) (op : Byte), s.dispatches → s.reads s.pc op → immediateCount op = 0 →
    ∃ i, decode [op] = .ok (i, []) ∧ step s = exec i { s with pc := s.pc + 1 })

/-- O22 (R101). fetch8 gives the byte at PC and PC+1 (modulo 2^16); on an unmapped PC or a failing
device it raises with PC as it was. A step whose opcode is unmapped changes nothing but the fault
latch, and one whose second byte is unmapped leaves PC past the first byte. -/
def Obligations.FetchFaults : Prop :=
  (∀ s : State,
    (decodeAddr s.bus s.pc = none →
      fetch8 s = .raised (s.latched (.unmappedAddress s.pc .read))) ∧
    (∀ t, busRead s.pc s = .raised t → fetch8 s = .raised t ∧ t.pc = s.pc) ∧
    (∀ v t, busRead s.pc s = .ok v t →
      fetch8 s = .ok v { t with pc := BitVec.ofNat 16 (s.pc.toNat + 1) })) ∧
  (∀ s : State, s.dispatches → decodeAddr s.bus s.pc = none →
    step s = .next (s.latched (.unmappedAddress s.pc .read))) ∧
  (∀ (s : State) (op : Byte), s.dispatches → s.reads s.pc op →
    (op = 0xCB ∨ immediateCount op ≠ 0) → decodeAddr s.bus (s.pc + 1) = none →
    step s = .next (State.latched { s with pc := s.pc + 1 } (.unmappedAddress (s.pc + 1) .read)))

/-- O23 (R413, R414). When get_top gives a source and the CPU steps, the step takes the lock, clears
IME and that source's IF bit (and halted), pushes PC high byte first, sets PC to 0x0040 + 8k, adds 5
to the counter and frees the lock, changing nothing else. A push write that faults ends it there:
IME and the bit stay cleared, SP is decremented once or twice, PC and the counter are as before and
the lock is still held. Pushes onto IF or IE land after the bit is cleared. -/
def Obligations.InterruptEntry : Prop :=
  ∀ (s : State) (k : Source), s.active → s.getTop s.ime = some k →
    PushesThen { s with lock := some .cpu, ime := false, halted := false,
                        ifl := s.ifl &&& ~~~(1#8 <<< k.bit) } s.pc (step s) fun t =>
      step s = .next { t with pc := BitVec.ofNat 16 (0x0040 + 8 * k.bit), cyc := s.cyc + 5,
                              lock := none }

/-- O24 (R407, R408, R410, R411). With IME clear get_top is None. With IME set it is a source
exactly when that source's IE and IF bits are set and it is scanned (LCD-status only with
LCD_STAT_SCANNED) and no source of a lower bit position is so; it is None exactly when no source is.
Bits 7:5 never count. It depends on IE, IF and the parameter alone. get_vector gives 0x0040, 0x0048,
0x0050, 0x0058, 0x0060 for VBlank, LCD-status, Timer, Serial, Joypad (sources 0 to 4) in every state
and changes nothing; any other number raises Abort(IllegalSource). -/
def Obligations.PriorityEncoderAndVectors : Prop :=
  (∀ s : State,
    let ready : Source → Prop := fun k =>
      s.ie.getLsbD k.bit = true ∧ s.ifl.getLsbD k.bit = true ∧
        (k = .lcdStat → s.cfg.lcdStatScanned = true)
    s.getTop false = none ∧
    (∀ k, s.getTop true = some k ↔ ready k ∧ ∀ j : Source, j.bit < k.bit → ¬ ready j) ∧
    (s.getTop true = none ↔ ∀ k, ¬ ready k)) ∧
  (∀ (s : State) (n : Nat),
    (n < 5 → getVector n s = .ok (BitVec.ofNat 16 (0x0040 + 8 * n)) s) ∧
    (5 ≤ n → getVector n s = .raised { s with fault := some (.illegalSource n) }) ∧
    getVector Source.vblank.bit s = .ok 0x0040 s ∧ getVector Source.lcdStat.bit s = .ok 0x0048 s ∧
    getVector Source.timer.bit s = .ok 0x0050 s ∧ getVector Source.serial.bit s = .ok 0x0058 s ∧
    getVector Source.joypad.bit s = .ok 0x0060 s)

/-- O25 (R404, R405). As the environment's moves, set_flag of source k below 5 sets bit k of IF,
clear_flag clears it, every other bit is as before, and nothing but IF changes (apart from the
model's reply); any other source number changes nothing. -/
def Obligations.RequestPort : Prop :=
  ∀ (s : State) (k : Nat),
    (k < 5 → ∃ v w : Byte,
      runMove (.setFlag k) s = .next { s with ifl := v, reply := some .done } ∧
      runMove (.clearFlag k) s = .next { s with ifl := w, reply := some .done } ∧
      ∀ j, j < 8 → v.getLsbD j = (s.ifl.getLsbD j || decide (j = k)) ∧
        w.getLsbD j = (s.ifl.getLsbD j && decide (j ≠ k))) ∧
    (5 ≤ k → runMove (.setFlag k) s = .next { s with reply := some .done } ∧
      runMove (.clearFlag k) s = .next { s with reply := some .done })

/-- O26 (R353). While halted with IE & IF & SCANMASK zero a step only adds 1 to the counter.
Otherwise the step clears halted and is the step of the woken CPU: with IME set an Interrupt-Service
(InterruptEntry says its effect, halted cleared), with IME clear a Normal-Dispatch
(StepRunsDecodedInstruction says its effect), the request staying in IF. -/
def Obligations.HaltedCpu : Prop :=
  ∀ s : State, s.active → s.halted = true →
    let mask : Byte := if s.cfg.lcdStatScanned then 0b00011111 else 0b00011101
    (s.ie &&& s.ifl &&& mask = 0 → step s = .next { s with cyc := s.cyc + 1 }) ∧
    (s.ie &&& s.ifl &&& mask ≠ 0 →
      step s = step { s with halted := false } ∧
      (s.ime = true → ∃ k, s.getTop s.ime = some k) ∧
      (s.ime = false → State.dispatches { s with halted := false }))

/-- O27 (R15, R35, R36, R40). A state whose fault latch is set is left by step exactly as it is,
environment moves included; a CPU step of a stopped or faulted CPU changes nothing; so does a step
of a stopped CPU whose environment makes no move. In every infinite run from a reset state
(Safety.lean's IsRun: any parameters, one move of the environment's choice after the other), all
states after a fault are that state, and after a stop only what the environment reaches can change:
IF, IE, storage, devices, the lock, the queue, the fault latch and the reply. -/
def Obligations.NoStepOnceOver : Prop :=
  (∀ s : State,
    (s.fault ≠ none → step s = .next s ∧ cpuStep s = .next s) ∧
    (s.stopped = true → cpuStep s = .next s ∧
      (s.inputs = [] → s.freeRun = none → step s = .next s))) ∧
  (∀ (moves : Nat → Move) (states : Nat → State), IsRun moves states → ∀ n k : Nat,
    let s := states n
    let t := states (n + k)
    (s.fault ≠ none → t = s) ∧
    (s.stopped = true →
      t = { s with ifl := t.ifl, ie := t.ie, mem := t.mem, devices := t.devices, lock := t.lock,
                   queue := t.queue, fault := t.fault, reply := t.reply }))

/-- O28 (R9, R14). One move a step and where the moves come from are the model's choice (log entries
3, 16 and 22): with no fault a step is the first pending move; with none pending it is the next free
move of a free run, whatever that move is; and a CPU step where the environment makes no move of its
own, or when that is the move. A move other than a CPU step always answers a next state and can
change only IF, IE, storage, devices, the lock, the queue, the fault latch and the model's reply. -/
def Obligations.EnvironmentMoves : Prop :=
  (∀ s : State, s.fault = none → s.inputs = [] → s.freeRun = none → step s = cpuStep s) ∧
  (∀ (s : State) (m : Move) (rest : List Move), s.fault = none → s.inputs = m :: rest →
    step s = runMove m { s with inputs := rest }) ∧
  (∀ (s : State) (k : Nat), s.fault = none → s.inputs = [] → s.freeRun = some k →
    step s = runMove (Config.freeMove k s.turn) { s with turn := s.turn + 1 }) ∧
  (∀ s : State, runMove .cpuStep s = cpuStep s) ∧
  (∀ (s : State) (m : Move), m ≠ .cpuStep →
    ∃ t, runMove m s = .next t ∧
      t = { s with ifl := t.ifl, ie := t.ie, mem := t.mem, devices := t.devices, lock := t.lock,
                   queue := t.queue, fault := t.fault, reply := t.reply })

/-- O29 (R30, R40, R63, R76, R389, R421). From a state with no fault every instruction takes a next
state; if that state has no fault the cycle counter has advanced by 1 to 6 (every instruction but
the faulting ones has a cost), and if a fault was raised the counter is as before, tick being the
last line of every rule. A CPU step always answers a next state, with the connection list, the
parameters, the queue and the model's inputs, free moves and reply as before. When the CPU is not
held, a step that ends without a fault has added 1 to 6 to the counter and leaves the lock as it
was, or free after an Interrupt-Service; one that ends in a fault has added nothing. An index of 8
or more, which no bytes give, latches InvalidOperand and does nothing else (the model's choice, log
entry 8). -/
def Obligations.CpuStepFrame : Prop :=
  (∀ (i : Instr) (s : State), s.fault = none →
    ∃ t, exec i s = .next t ∧
      (t.fault = none → ∃ n, 1 ≤ n ∧ n ≤ 6 ∧ t.cyc = s.cyc + BitVec.ofNat 64 n) ∧
      (t.fault ≠ none → t.cyc = s.cyc)) ∧
  (∀ s : State, ∃ t, cpuStep s = .next t ∧
    t.bus = s.bus ∧ t.cfg = s.cfg ∧ t.queue = s.queue ∧ t.inputs = s.inputs ∧
    t.freeRun = s.freeRun ∧ t.turn = s.turn ∧ t.reply = s.reply ∧
    (s.fault = none → s.stopped = false → (s.lock = none ∨ s.lock = some .cpu) →
      (t.fault = none → (t.lock = s.lock ∨ t.lock = none) ∧
        ∃ n, 1 ≤ n ∧ n ≤ 6 ∧ t.cyc = s.cyc + BitVec.ofNat 64 n) ∧
      (t.fault ≠ none → t.cyc = s.cyc))) ∧
  (∀ (s : State) (b : Nat) (r : Reg8), 8 ≤ b →
    ∀ i ∈ [Instr.bitBR b r, .bitBHl b, .resBR b r, .resBHl b, .setBR b r, .setBHl b, .rstT b],
      exec i s = .next { s with fault := some (.invalidOperand b) })

/-- O30 (R20, R89). If in the storage list and in the list of device states the numbers rise
strictly and no entry is what an unlisted one reads as, the same holds after any step, so that equal
contents are equal data. -/
def Obligations.StepKeepsCanonicalStorage : Prop :=
  ∀ s t : State, s.canonical → step s = .next t → t.canonical

/-- O31 (R371, R372, R374). If no event is later than a child of it and there are at most PQ_CAP
events, the same holds after any step: after every push, pop, schedule with its rebase,
execute_next, failed operation or CPU step. Consequently (the spec infers this clause in R374 from
R371) the first event is of least timestamp. -/
def Obligations.StepKeepsQueueHeap : Prop :=
  (∀ s t : State, s.queueOk → step s = .next t → t.queueOk) ∧
  (∀ (s : State) (root e : Event), s.queueOk → s.queue.head? = some root → e ∈ s.queue →
    root.timestamp ≤ e.timestamp)

/-- O32 (R76, R414). If the lock is the CPU's only with the fault latch set, the same holds after
any step; this is what the spec infers of the lock around Interrupt-Service. -/
def Obligations.StepKeepsCpuLockFree : Prop :=
  ∀ s t : State, s.lockOk → step s = .next t → t.lockOk

/-- O33 (R41, R372, R374, R450). Reset, with any platform whose storage image and device states are
in canonical form and any reset values with an empty queue and a free lock, has canonical storage, a
heap within capacity and a free lock; so has the model's reset. -/
def Obligations.ResetMeetsInvariants : Prop :=
  (∀ (r : Machine.ResetValues) (p : Platform), p.mem0.wf = true → p.devices0.wf = true →
    r.queue = [] → r.lock = none →
    let s := State.resetWith r p
    s.canonical ∧ s.queueOk ∧ s.lockOk) ∧
  State.reset.canonical ∧ State.reset.queueOk ∧ State.reset.lockOk

/-- O34 (R83, R88). From every state with the default map, every step whatever it is leaves every
byte of the 32768-byte ROM array, and so what every address up to 0x7FFF reads, as it was. -/
def Obligations.RomNeverChanges : Prop :=
  ∀ s t : State, s.bus = defaultMap → step s = .next t →
    (∀ k : Nat, k < 32768 →
      t.mem.read (Owner.cart.base + k) = s.mem.read (Owner.cart.base + k)) ∧
    (∀ a : Word, a ≤ 0x7FFF → t.peek a = s.peek a)

/-- O35 (R375, R376, R377). is_empty answers len = 0, is_full answers len = PQ_CAP; front gives
data[0], or fails with EmptyContainer(front) on an empty queue and only then; as the environment's
moves they change nothing but the model's reply and, on failure, the fault latch. -/
def Obligations.QueueTests : Prop :=
  ∀ s : State,
    runMove .isEmpty s = .next { s with reply := some (.answer (decide (s.queue.length = 0))) } ∧
    runMove .isFull s =
      .next { s with reply := some (.answer (decide (s.queue.length = s.cfg.pqCap))) } ∧
    (∀ x xs, s.queue = x :: xs → runMove .front s = .next { s with reply := some (.event x) }) ∧
    (s.queue = [] → runMove .front s =
      .next { s with fault := some (.emptyContainer .front),
                     reply := some (.failed (.emptyContainer .front)) })

/-- O36 (R371, R374, R378, R380). For any element type and comparator: push into a queue of PQ_CAP
elements fails with CapacityExceeded; otherwise the new queue has exactly the old elements and the
new one and is one longer, and if the comparator is a strict weak order and the queue was a heap, it
is a heap. -/
def Obligations.QueuePush : Prop :=
  ∀ (α : Type) (lower : α → α → Bool) (cap : Nat) (x : α) (data : List α),
    (data.length = cap → Queue.push lower cap x data = .error (.capacityExceeded .queue)) ∧
    (data.length ≠ cap → ∃ q, Queue.push lower cap x data = .ok q ∧
      q.Perm (x :: data) ∧ q.length = data.length + 1 ∧
      (StrictWeak lower → Queue.heapOrdered lower data = true →
        Queue.heapOrdered lower q = true))

/-- O37 (R371, R374, R379, R380). For any element type and comparator: pop of an empty queue fails
with EmptyContainer(pop); otherwise it gives data[0], the element front gives, and the new queue has
exactly the other elements; if the comparator is a strict weak order and the queue was a heap, that
element is lower than none, and the new queue is a heap. -/
def Obligations.QueuePop : Prop :=
  ∀ (α : Type) (lower : α → α → Bool),
    Queue.pop lower [] = .error (.emptyContainer .pop) ∧
    ∀ (x : α) (xs : List α), ∃ q, Queue.pop lower (x :: xs) = .ok (x, q) ∧
      Queue.front (x :: xs) = .ok x ∧ (x :: q).Perm (x :: xs) ∧ q.length = xs.length ∧
      (StrictWeak lower → Queue.heapOrdered lower (x :: xs) = true →
        (∀ y ∈ xs, lower x y = false) ∧ Queue.heapOrdered lower q = true)

/-- O38 (R374, R382, R384). With the queue empty or the new timestamp at most TS_WRAP, queue and
event are as they are. Otherwise, on a heap, with m the lesser of the first event's timestamp and
the new one's, each queued event and the new one is lowered by exactly m with no wrap and keeps its
action, so all differences are kept; some event now has timestamp 0; and the queue is still a heap
(the spec infers this clause in R384 from R374 and R382). -/
def Obligations.RebaseKeepsDifferences : Prop :=
  ∀ (p : Config) (e root : Event) (rest : List Event),
    rebaseFor p e [] = ([], e) ∧
    (e.timestamp.toNat ≤ p.tsWrap → rebaseFor p e (root :: rest) = (root :: rest, e)) ∧
    (p.tsWrap < e.timestamp.toNat → Queue.heapOrdered Event.lower (root :: rest) = true →
      let m := min root.timestamp.toNat e.timestamp.toNat
      let q := (rebaseFor p e (root :: rest)).1
      let e' := (rebaseFor p e (root :: rest)).2
      List.Forall₂ (fun x y => x.timestamp.toNat = y.timestamp.toNat + m ∧ x.action = y.action)
        (root :: rest) q ∧
      e.timestamp.toNat = e'.timestamp.toNat + m ∧ e.action = e'.action ∧
      (∃ x ∈ e' :: q, x.timestamp = 0) ∧ Queue.heapOrdered Event.lower q = true)

/-- O39 (R383, R385, R387, R388). As the environment's moves: schedule on a full queue changes
nothing but the fault latch (no rebase) and the reply; otherwise the queue becomes the rebased
events with the new one. execute_next on an empty queue latches EmptyContainer; otherwise it hands
back the first event, which leaves the queue, the others staying. Nothing else changes. -/
def Obligations.SchedulerPort : Prop :=
  ∀ (s : State) (e : Event),
    (s.queue.length = s.cfg.pqCap → runMove (.schedule e) s =
      .next { s with fault := some (.capacityExceeded .queue),
                     reply := some (.failed (.capacityExceeded .queue)) }) ∧
    (s.queue.length ≠ s.cfg.pqCap → ∃ q,
      runMove (.schedule e) s = .next { s with queue := q, reply := some .done } ∧
      q.Perm ((rebaseFor s.cfg e s.queue).2 :: (rebaseFor s.cfg e s.queue).1)) ∧
    (s.queue = [] → runMove .executeNext s =
      .next { s with fault := some (.emptyContainer .pop),
                     reply := some (.failed (.emptyContainer .pop)) }) ∧
    (∀ x xs, s.queue = x :: xs → ∃ q,
      runMove .executeNext s = .next { s with queue := q, reply := some (.event x) } ∧
      (x :: q).Perm s.queue)

/-- O40 (R380, R385, R387). Draining a heap gives all its events, no event before an earlier one.
Scheduling N events with distinct timestamps, none above the rebase threshold and N at most PQ_CAP,
into an empty queue and then calling execute_next N times gives exactly those events in strictly
increasing timestamp order. (With a rebase the first clause applies to the rebased values; the order
of equal timestamps is left open, log entry 13.) -/
def Obligations.EventsLeaveInOrder : Prop :=
  (∀ q : List Event, Queue.heapOrdered Event.lower q = true →
    ∃ out, drain q.length q = .ok out ∧ out.Perm q ∧
      out.Pairwise fun x y => x.timestamp ≤ y.timestamp) ∧
  (∀ (p : Config) (es : List Event), es.length ≤ p.pqCap →
    es.Pairwise (fun x y => x.timestamp ≠ y.timestamp) →
    (∀ e ∈ es, e.timestamp.toNat ≤ p.tsWrap) →
    ∃ q out, scheduleAll p es [] = .ok q ∧ drain es.length q = .ok out ∧ out.Perm es ∧
      out.Pairwise fun x y => x.timestamp < y.timestamp)

/-- O41 (R141, R144, R170, R172). Each of these completes in every state, writes its destination
register with the source's value, adds its cost to the counter and changes nothing else; with the
bytes of each. -/
def Obligations.RegisterLoads : Prop :=
  ∀ s : State,
    (∀ r r' : Reg8, Encodes (.ldRR r r') [BitVec.ofNat 8 (0x40 + 8 * r.code + r'.code)] ∧
      exec (.ldRR r r') s = .next { s.setReg r (s.reg r') with cyc := s.cyc + 1 }) ∧
    (∀ (r : Reg8) (v : Byte), Encodes (.ldRD8 r v) [BitVec.ofNat 8 (0x06 + 8 * r.code), v] ∧
      exec (.ldRD8 r v) s = .next { s.setReg r v with cyc := s.cyc + 2 }) ∧
    (∀ (rp : Rp) (lo hi : Byte),
      Encodes (.ldRpD16 rp (hi ++ lo)) [BitVec.ofNat 8 (0x01 + 16 * rp.code), lo, hi] ∧
      exec (.ldRpD16 rp (hi ++ lo)) s = .next { s.setPair rp (hi ++ lo) with cyc := s.cyc + 3 }) ∧
    (Encodes .ldSpHl [0xF9] ∧
      exec .ldSpHl s = .next { s with sp := s.h ++ s.l, cyc := s.cyc + 2 })

/-- O42 (R142, R146, R147, R150, R152, R154, R156, R157). Each load reads the byte at the address
its rule computes, writes it to its register (stepping HL by one for (HL+) and (HL-), from the old
HL), adds its cost and changes nothing else; on an unmapped address it changes nothing but the fault
latch. -/
def Obligations.LoadsFromMemory : Prop :=
  ∀ s : State,
    (∀ r : Reg8, Encodes (.ldRHl r) [BitVec.ofNat 8 (0x46 + 8 * r.code)] ∧
      ReadsThen s (s.h ++ s.l) (exec (.ldRHl r) s) fun v t =>
        exec (.ldRHl r) s = .next { t.setReg r v with cyc := t.cyc + 2 }) ∧
    (Encodes .ldABc [0x0A] ∧ ReadsThen s (s.b ++ s.c) (exec .ldABc s) fun v t =>
      exec .ldABc s = .next { t with a := v, cyc := t.cyc + 2 }) ∧
    (Encodes .ldADe [0x1A] ∧ ReadsThen s (s.d ++ s.e) (exec .ldADe s) fun v t =>
      exec .ldADe s = .next { t with a := v, cyc := t.cyc + 2 }) ∧
    (∀ lo hi : Byte, Encodes (.ldAA16 (hi ++ lo)) [0xFA, lo, hi] ∧
      ReadsThen s (hi ++ lo) (exec (.ldAA16 (hi ++ lo)) s) fun v t =>
        exec (.ldAA16 (hi ++ lo)) s = .next { t with a := v, cyc := t.cyc + 4 }) ∧
    (∀ n : Byte, Encodes (.ldhAA8 n) [0xF0, n] ∧
      ReadsThen s (BitVec.ofNat 16 (0xFF00 + n.toNat)) (exec (.ldhAA8 n) s) fun v t =>
        exec (.ldhAA8 n) s = .next { t with a := v, cyc := t.cyc + 3 }) ∧
    (Encodes .ldAC [0xF2] ∧
      ReadsThen s (BitVec.ofNat 16 (0xFF00 + s.c.toNat)) (exec .ldAC s) fun v t =>
        exec .ldAC s = .next { t with a := v, cyc := t.cyc + 2 }) ∧
    (Encodes .ldAHlInc [0x2A] ∧ ReadsThen s (s.h ++ s.l) (exec .ldAHlInc s) fun v t =>
      exec .ldAHlInc s = .next { t.setHl (s.hl + 1) with a := v, cyc := t.cyc + 2 }) ∧
    (Encodes .ldAHlDec [0x3A] ∧ ReadsThen s (s.h ++ s.l) (exec .ldAHlDec s) fun v t =>
      exec .ldAHlDec s = .next { t.setHl (s.hl - 1) with a := v, cyc := t.cyc + 2 })

/-- O43 (R143, R145, R148, R149, R151, R153, R155, R158, R159). Each store writes its byte at the
address its rule computes, by one bus write, then steps HL by one for (HL+) and (HL-), adds its cost
and changes nothing else; on an unmapped address it changes nothing but the fault latch.
BusWriteFrame says what the write leaves unchanged. -/
def Obligations.StoresToMemory : Prop :=
  ∀ s : State,
    (∀ r : Reg8, Encodes (.ldHlR r) [BitVec.ofNat 8 (0x70 + r.code)] ∧
      WritesThen s (s.h ++ s.l) (s.reg r) (exec (.ldHlR r) s) fun t =>
        exec (.ldHlR r) s = .next { t with cyc := t.cyc + 2 }) ∧
    (∀ v : Byte, Encodes (.ldHlD8 v) [0x36, v] ∧
      WritesThen s (s.h ++ s.l) v (exec (.ldHlD8 v) s) fun t =>
        exec (.ldHlD8 v) s = .next { t with cyc := t.cyc + 3 }) ∧
    (Encodes .ldBcA [0x02] ∧ WritesThen s (s.b ++ s.c) s.a (exec .ldBcA s) fun t =>
      exec .ldBcA s = .next { t with cyc := t.cyc + 2 }) ∧
    (Encodes .ldDeA [0x12] ∧ WritesThen s (s.d ++ s.e) s.a (exec .ldDeA s) fun t =>
      exec .ldDeA s = .next { t with cyc := t.cyc + 2 }) ∧
    (∀ lo hi : Byte, Encodes (.ldA16A (hi ++ lo)) [0xEA, lo, hi] ∧
      WritesThen s (hi ++ lo) s.a (exec (.ldA16A (hi ++ lo)) s) fun t =>
        exec (.ldA16A (hi ++ lo)) s = .next { t with cyc := t.cyc + 4 }) ∧
    (∀ n : Byte, Encodes (.ldhA8A n) [0xE0, n] ∧
      WritesThen s (BitVec.ofNat 16 (0xFF00 + n.toNat)) s.a (exec (.ldhA8A n) s) fun t =>
        exec (.ldhA8A n) s = .next { t with cyc := t.cyc + 3 }) ∧
    (Encodes .ldCA [0xE2] ∧
      WritesThen s (BitVec.ofNat 16 (0xFF00 + s.c.toNat)) s.a (exec .ldCA s) fun t =>
        exec .ldCA s = .next { t with cyc := t.cyc + 2 }) ∧
    (Encodes .ldHlIncA [0x22] ∧ WritesThen s (s.h ++ s.l) s.a (exec .ldHlIncA s) fun t =>
      exec .ldHlIncA s = .next { t.setHl (s.hl + 1) with cyc := t.cyc + 2 }) ∧
    (Encodes .ldHlDecA [0x32] ∧ WritesThen s (s.h ++ s.l) s.a (exec .ldHlDecA s) fun t =>
      exec .ldHlDecA s = .next { t.setHl (s.hl - 1) with cyc := t.cyc + 2 })

/-- O44 (R171, R174, R175, R176, R178, R179). LD (a16),SP writes SP's low byte at a16 and its high
byte at a16+1 (modulo 2^16) and adds 5. PUSH writes the pair's high byte at SP-1, then its low byte
at SP-2, leaves SP two lower and adds 4; PUSH AF the same with A and F. A faulting write ends the
instruction with the effects made until then. POP reads the low byte at SP and the high byte at SP+1
(the order the spec infers in R177), writes the pair, leaves SP two higher and adds 3; POP AF writes
A with the high byte and the four flags with bits 7 to 4 of the low byte. A faulting read ends the
instruction with SP moved past the bytes read. -/
def Obligations.StackInstructions : Prop :=
  ∀ s : State,
    (∀ lo hi : Byte, Encodes (.ldA16Sp (hi ++ lo)) [0x08, lo, hi] ∧
      WritesThen s (hi ++ lo) (s.sp.extractLsb' 0 8) (exec (.ldA16Sp (hi ++ lo)) s) fun t =>
        WritesThen t ((hi ++ lo) + 1) (s.sp.extractLsb' 8 8) (exec (.ldA16Sp (hi ++ lo)) s) fun u =>
          exec (.ldA16Sp (hi ++ lo)) s = .next { u with cyc := u.cyc + 5 }) ∧
    (∀ rp : Rp2, Encodes (.push rp) [BitVec.ofNat 8 (0xC5 + 16 * rp.code)] ∧
      PushesThen s (s.stackPair rp) (exec (.push rp) s) fun u =>
        exec (.push rp) s = .next { u with cyc := u.cyc + 4 }) ∧
    (Encodes .pushAf [0xF5] ∧
      PushesThen s (s.a ++ s.f.toByte) (exec .pushAf s) fun u =>
        exec .pushAf s = .next { u with cyc := u.cyc + 4 }) ∧
    (∀ rp : Rp2, Encodes (.pop rp) [BitVec.ofNat 8 (0xC1 + 16 * rp.code)] ∧
      PopsThen s (exec (.pop rp) s) fun hi lo u =>
        exec (.pop rp) s = .next { u.setStackPair rp (hi ++ lo) with cyc := u.cyc + 3 }) ∧
    (Encodes .popAf [0xF1] ∧
      PopsThen s (exec .popAf s) fun hi lo u =>
        exec .popAf s = .next { u with
          a := hi, f := ⟨lo.getLsbD 7, lo.getLsbD 6, lo.getLsbD 5, lo.getLsbD 4⟩,
          cyc := u.cyc + 3 })

/-- O45 (R180). When SP-1 and SP-2 name two distinct bytes of plain storage (in canonical form),
PUSH then POP of any pair, AF included, completes with every register and flag as before and only
those two bytes and the counter changed; and RET, RETI or a taken RET cc after a CALL, a taken CALL
cc, an RST or an Interrupt-Service completes with PC, SP and every register and flag as they were
before it; only storage, the counter and IME can differ, and after an Interrupt-Service IF and the
lock. -/
def Obligations.PushPopRoundTrip : Prop :=
  ∀ (s : State) (j k : Nat), s.mem.wf = true → j ≠ k →
    (∃ c, decodeAddr s.bus (s.sp - 1) = some c ∧ c.port = .ram ∧
      c.place (s.sp - 1) = .ok (.cell j)) →
    (∃ c, decodeAddr s.bus (s.sp - 2) = some c ∧ c.port = .ram ∧
      c.place (s.sp - 2) = .ok (.cell k)) →
    (∀ i ∈ [(Instr.push .bc, Instr.pop .bc), (.push .de, .pop .de), (.push .hl, .pop .hl),
        (.pushAf, .popAf)],
      ∃ t u, exec i.1 s = .next t ∧ exec i.2 t = .next u ∧
        u = { s with mem := u.mem, cyc := s.cyc + 7 } ∧
        ∀ p, p ≠ .cell j → p ≠ .cell k → u.content p = s.content p) ∧
    (let call : Instr → Prop := fun i =>
        (∃ a, i = .callA16 a) ∨ (∃ cc a, i = .callCcA16 cc a ∧ s.cond cc = true) ∨
          ∃ n, n < 8 ∧ i = .rstT n
      let ret : Instr → Prop := fun i =>
        i = .ret ∨ i = .reti ∨ ∃ cc, i = .retCc cc ∧ s.cond cc = true
      (∀ i, call i → ∃ t, exec i s = .next t ∧ ∀ r, ret r → ∃ u, exec r t = .next u ∧
        u = { s with mem := u.mem, cyc := u.cyc, ime := u.ime }) ∧
      ∀ q : Source, ∃ t, interruptService q s = .ok () t ∧ ∀ r, ret r → ∃ u, exec r t = .next u ∧
        u = { s with mem := u.mem, cyc := u.cyc, ime := u.ime, ifl := u.ifl, lock := u.lock })

/-- O46 (R191, R197, R200, R201, R202, R203, R204, R205). Each form completes with A the sum modulo
256, C the carry out of bit 7 and H that out of bit 3 of operand, A and carry-in (fC for ADC, 0 for
ADD) added as integers, Z exactly when A is 0, N clear, and nothing else changed but the counter; an
unmapped (HL) changes nothing but the fault latch. -/
def Obligations.AddAndAdc : Prop :=
  ∀ s : State,
    (∀ r : Reg8, Encodes (.addAR r) [BitVec.ofNat 8 (0x80 + r.code)] ∧
      ∃ t, exec (.addAR r) s = .next t ∧ AddsTo s t (s.reg r) false 1) ∧
    (Encodes .addAHl [0x86] ∧ ReadsThen s s.hl (exec .addAHl s) fun b u =>
      ∃ t, exec .addAHl s = .next t ∧ AddsTo u t b false 2) ∧
    (∀ b : Byte, Encodes (.addAD8 b) [0xC6, b] ∧
      ∃ t, exec (.addAD8 b) s = .next t ∧ AddsTo s t b false 2) ∧
    (∀ r : Reg8, Encodes (.adcAR r) [BitVec.ofNat 8 (0x88 + r.code)] ∧
      ∃ t, exec (.adcAR r) s = .next t ∧ AddsTo s t (s.reg r) s.f.c 1) ∧
    (Encodes .adcAHl [0x8E] ∧ ReadsThen s s.hl (exec .adcAHl s) fun b u =>
      ∃ t, exec .adcAHl s = .next t ∧ AddsTo u t b s.f.c 2) ∧
    (∀ b : Byte, Encodes (.adcAD8 b) [0xCE, b] ∧
      ∃ t, exec (.adcAD8 b) s = .next t ∧ AddsTo s t b s.f.c 2)

/-- O47 (R192, R196, R206, R207, R208, R209, R210, R211, R221, R222, R223). Each form of SUB and SBC
completes with A the difference modulo 256, C and H the borrows of operand and carry-in (fC for SBC,
0 for SUB) counted as integers, Z exactly when A is 0, N set; CP sets the flags of SUB and keeps A,
so Z says A = operand and C says A < operand; nothing else changes but the counter; an unmapped (HL)
changes nothing but the fault latch. -/
def Obligations.SubSbcAndCompare : Prop :=
  ∀ s : State,
    (∀ r : Reg8, Encodes (.subR r) [BitVec.ofNat 8 (0x90 + r.code)] ∧
      ∃ t, exec (.subR r) s = .next t ∧ SubsFrom s t (s.reg r) false 1) ∧
    (Encodes .subHl [0x96] ∧ ReadsThen s s.hl (exec .subHl s) fun b u =>
      ∃ t, exec .subHl s = .next t ∧ SubsFrom u t b false 2) ∧
    (∀ b : Byte, Encodes (.subD8 b) [0xD6, b] ∧
      ∃ t, exec (.subD8 b) s = .next t ∧ SubsFrom s t b false 2) ∧
    (∀ r : Reg8, Encodes (.sbcAR r) [BitVec.ofNat 8 (0x98 + r.code)] ∧
      ∃ t, exec (.sbcAR r) s = .next t ∧ SubsFrom s t (s.reg r) s.f.c 1) ∧
    (Encodes .sbcAHl [0x9E] ∧ ReadsThen s s.hl (exec .sbcAHl s) fun b u =>
      ∃ t, exec .sbcAHl s = .next t ∧ SubsFrom u t b s.f.c 2) ∧
    (∀ b : Byte, Encodes (.sbcAD8 b) [0xDE, b] ∧
      ∃ t, exec (.sbcAD8 b) s = .next t ∧ SubsFrom s t b s.f.c 2) ∧
    (∀ r : Reg8, Encodes (.cpR r) [BitVec.ofNat 8 (0xB8 + r.code)] ∧
      ∃ t, exec (.cpR r) s = .next t ∧ Compares s t (s.reg r) 1) ∧
    (Encodes .cpHl [0xBE] ∧ ReadsThen s s.hl (exec .cpHl s) fun b u =>
      ∃ t, exec .cpHl s = .next t ∧ Compares u t b 2) ∧
    (∀ b : Byte, Encodes (.cpD8 b) [0xFE, b] ∧
      ∃ t, exec (.cpD8 b) s = .next t ∧ Compares s t b 2)

/-- O48 (R193, R194, R195, R212, R213, R214, R215, R216, R217, R218, R219, R220). Each form
completes with A the bitwise result, Z exactly when it is 0, N and C clear, H set for AND and clear
for XOR and OR, and nothing else changed but the counter; an unmapped (HL) changes nothing but the
fault latch. -/
def Obligations.LogicOperations : Prop :=
  ∀ s : State,
    let after : State → Byte → Bool → BitVec 64 → Out := fun u w h n =>
      .next { u with a := w, f := ⟨decide (w = 0), false, h, false⟩, cyc := u.cyc + n }
    (∀ r : Reg8, Encodes (.andR r) [BitVec.ofNat 8 (0xA0 + r.code)] ∧
      exec (.andR r) s = after s (s.a &&& s.reg r) true 1) ∧
    (Encodes .andHl [0xA6] ∧ ReadsThen s s.hl (exec .andHl s) fun b u =>
      exec .andHl s = after u (s.a &&& b) true 2) ∧
    (∀ b : Byte, Encodes (.andD8 b) [0xE6, b] ∧
      exec (.andD8 b) s = after s (s.a &&& b) true 2) ∧
    (∀ r : Reg8, Encodes (.xorR r) [BitVec.ofNat 8 (0xA8 + r.code)] ∧
      exec (.xorR r) s = after s (s.a ^^^ s.reg r) false 1) ∧
    (Encodes .xorHl [0xAE] ∧ ReadsThen s s.hl (exec .xorHl s) fun b u =>
      exec .xorHl s = after u (s.a ^^^ b) false 2) ∧
    (∀ b : Byte, Encodes (.xorD8 b) [0xEE, b] ∧
      exec (.xorD8 b) s = after s (s.a ^^^ b) false 2) ∧
    (∀ r : Reg8, Encodes (.orR r) [BitVec.ofNat 8 (0xB0 + r.code)] ∧
      exec (.orR r) s = after s (s.a ||| s.reg r) false 1) ∧
    (Encodes .orHl [0xB6] ∧ ReadsThen s s.hl (exec .orHl s) fun b u =>
      exec .orHl s = after u (s.a ||| b) false 2) ∧
    (∀ b : Byte, Encodes (.orD8 b) [0xF6, b] ∧
      exec (.orD8 b) s = after s (s.a ||| b) false 2)

/-- O49 (R224, R225, R226, R227). INC completes with the operand plus 1 modulo 256, Z exactly when
that is 0, N clear, H exactly when the old low nibble was 0xF; DEC with the operand minus 1, N set,
H exactly when the old low nibble was 0; C and everything else but the counter unchanged. The (HL)
forms read, then write the byte at HL; a fault on the read changes nothing else. -/
def Obligations.IncrementAndDecrement : Prop :=
  ∀ s : State,
    let inc : Byte → Byte → Flags → Prop := fun v w f =>
      w.toNat = (v.toNat + 1) % 256 ∧ (f.z = true ↔ w.toNat = 0) ∧ f.n = false ∧
        (f.h = true ↔ v.toNat % 16 = 15) ∧ f.c = s.f.c
    let dec : Byte → Byte → Flags → Prop := fun v w f =>
      w.toNat = (v.toNat + 255) % 256 ∧ (f.z = true ↔ w.toNat = 0) ∧ f.n = true ∧
        (f.h = true ↔ v.toNat % 16 = 0) ∧ f.c = s.f.c
    (∀ r : Reg8, Encodes (.incR r) [BitVec.ofNat 8 (0x04 + 8 * r.code)] ∧
      ∃ w f, inc (s.reg r) w f ∧
        exec (.incR r) s = .next { s.setReg r w with f := f, cyc := s.cyc + 1 }) ∧
    (Encodes .incHl [0x34] ∧ ReadsThen s s.hl (exec .incHl s) fun v t =>
      ∃ w f, inc v w f ∧ WritesThen t s.hl w (exec .incHl s) fun u =>
        exec .incHl s = .next { u with f := f, cyc := u.cyc + 3 }) ∧
    (∀ r : Reg8, Encodes (.decR r) [BitVec.ofNat 8 (0x05 + 8 * r.code)] ∧
      ∃ w f, dec (s.reg r) w f ∧
        exec (.decR r) s = .next { s.setReg r w with f := f, cyc := s.cyc + 1 }) ∧
    (Encodes .decHl [0x35] ∧ ReadsThen s s.hl (exec .decHl s) fun v t =>
      ∃ w f, dec v w f ∧ WritesThen t s.hl w (exec .decHl s) fun u =>
        exec .decHl s = .next { u with f := f, cyc := u.cyc + 3 })

/-- O50 (R228, R229, R230, R231). DAA completes in every state: it adds (after an addition) or
subtracts (after a subtraction) 0x06 and 0x60 by the rule's tests on the old A and flags, sets Z
from the new A, clears H, sets C when 0x60 was used, keeps N, adds 1 and changes nothing else. Each
completes in every state with exactly these effects and 1 added to the counter: CPL complements
every bit of A, sets N and H, keeps Z and C; SCF clears N and H and sets C; CCF clears N and H and
complements C; both keep Z. -/
def Obligations.AccumulatorAdjustments : Prop :=
  ∀ s : State,
    (Encodes .daa [0x27] ∧
    let six : Nat := if s.f.h = true ∨ (s.f.n = false ∧ s.a.toNat % 16 > 0x09) then 0x06 else 0
    let sixty : Nat := if s.f.c = true ∨ (s.f.n = false ∧ s.a.toNat > 0x99) then 0x60 else 0
    ∃ t, exec .daa s = .next t ∧
      t.a.toNat = (if s.f.n = true then s.a.toNat + 256 - (six + sixty)
        else s.a.toNat + (six + sixty)) % 256 ∧
      (t.f.z = true ↔ t.a.toNat = 0) ∧ t.f.n = s.f.n ∧ t.f.h = false ∧
      (t.f.c = true ↔ sixty = 0x60) ∧
      t = { s with a := t.a, f := t.f, cyc := s.cyc + 1 }) ∧
    (Encodes .cpl [0x2F] ∧ exec .cpl s =
      .next { s with a := BitVec.ofNat 8 (255 - s.a.toNat), f := ⟨s.f.z, true, true, s.f.c⟩,
                     cyc := s.cyc + 1 }) ∧
    (Encodes .scf [0x37] ∧ exec .scf s =
      .next { s with f := ⟨s.f.z, false, false, true⟩, cyc := s.cyc + 1 }) ∧
    (Encodes .ccf [0x3F] ∧ exec .ccf s =
      .next { s with f := ⟨s.f.z, false, false, !s.f.c⟩, cyc := s.cyc + 1 })

/-- O51 (R191, R192, R228). For decimal numbers m and n below 100 with A holding m in two decimal
digits, and n in two decimal digits the immediate, the register r or the byte read at HL: ADD then
DAA leaves (m + n) modulo 100 in decimal digits with C exactly when the sum reaches 100; SUB then
DAA leaves (m - n) modulo 100 with C exactly when m < n; and ADC and SBC do the same with the carry
counted in. -/
def Obligations.DecimalArithmetic : Prop :=
  ∀ (s : State) (m n : Nat), m < 100 → n < 100 → s.a = bcd m →
    let k := bitNat s.f.c
    let gives : Instr → Nat → Prop → Prop := fun i x carry =>
      ∃ t u, exec i s = .next t ∧ exec .daa t = .next u ∧ u.a = bcd x ∧ (u.f.c = true ↔ carry)
    let decimal : Instr → Instr → Instr → Instr → Prop := fun add adc sub sbc =>
      gives add ((m + n) % 100) (100 ≤ m + n) ∧
      gives adc ((m + n + k) % 100) (100 ≤ m + n + k) ∧
      gives sub ((m + 100 - n) % 100) (m < n) ∧
      gives sbc ((m + 200 - (n + k)) % 100) (m < n + k)
    decimal (.addAD8 (bcd n)) (.adcAD8 (bcd n)) (.subD8 (bcd n)) (.sbcAD8 (bcd n)) ∧
    (∀ r, s.reg r = bcd n → decimal (.addAR r) (.adcAR r) (.subR r) (.sbcAR r)) ∧
    (∀ t, busRead s.hl s = .ok (bcd n) t → decimal .addAHl .adcAHl .subHl .sbcAHl)

/-- O52 (R173, R250, R251, R252, R253, R254). INC and DEC rp add and subtract 1 modulo 65536 and
write no flag. ADD HL,rp leaves HL and C as the 17-bit sum, H the carry out of bit 11, N clear, Z
kept. ADD SP,e and LD HL,SP+e give SP plus the signed displacement modulo 65536 to SP or HL, clear Z
and N, and take H and C from the unsigned addition of SP's low byte and e. Nothing else changes but
the counter. -/
def Obligations.SixteenBitArithmetic : Prop :=
  ∀ s : State,
    (∀ rp : Rp, Encodes (.incRp rp) [BitVec.ofNat 8 (0x03 + 16 * rp.code)] ∧
      exec (.incRp rp) s = .next { s.setPair rp (BitVec.ofNat 16 ((s.pair rp).toNat + 1)) with
        cyc := s.cyc + 2 }) ∧
    (∀ rp : Rp, Encodes (.decRp rp) [BitVec.ofNat 8 (0x0B + 16 * rp.code)] ∧
      exec (.decRp rp) s = .next { s.setPair rp (BitVec.ofNat 16 ((s.pair rp).toNat + 65535)) with
        cyc := s.cyc + 2 }) ∧
    (∀ rp : Rp, Encodes (.addHlRp rp) [BitVec.ofNat 8 (0x09 + 16 * rp.code)] ∧
      ∃ t, exec (.addHlRp rp) s = .next t ∧
        t.hl.toNat + 65536 * bitNat t.f.c = s.hl.toNat + (s.pair rp).toNat ∧
        (t.f.h = true ↔ s.hl.toNat % 4096 + (s.pair rp).toNat % 4096 > 0x0FFF) ∧
        t.f.n = false ∧ t.f.z = s.f.z ∧
        t = { s with h := t.h, l := t.l, f := t.f, cyc := s.cyc + 2 }) ∧
    (∀ e : Byte, ∃ (v : Word) (f : Flags),
      (v.toNat : Int) = (s.sp.toNat + e.toInt) % 65536 ∧ f.z = false ∧ f.n = false ∧
      (f.h = true ↔ s.sp.toNat % 16 + e.toNat % 16 > 0x0F) ∧
      (f.c = true ↔ s.sp.toNat % 256 + e.toNat > 0xFF) ∧
      Encodes (.addSpE e) [0xE8, e] ∧
      exec (.addSpE e) s = .next { s with sp := v, f := f, cyc := s.cyc + 4 } ∧
      Encodes (.ldHlSpE e) [0xF8, e] ∧
      exec (.ldHlSpE e) s = .next { s.setHl v with f := f, cyc := s.cyc + 3 })

/-- O53 (R270, R271, R272, R273, R274). Each completes in every state with A rotated (through C for
RLA and RRA), C the bit that fell out, Z, N and H clear whatever the result, 1 added to the counter
and nothing else changed; and the secondary table's rotate of A gives the same A and C with Z
exactly when A is 0, for 2. -/
def Obligations.AccumulatorRotates : Prop :=
  ∀ s : State, ∀ x ∈ ([(.rlc, .rlca, .rlcR .a, 0x07), (.rrc, .rrca, .rrcR .a, 0x0F),
      (.rl, .rla, .rlR .a, 0x17), (.rr, .rra, .rrR .a, 0x1F)] : List (Rot × Instr × Instr × Byte)),
    Encodes x.2.1 [x.2.2.2] ∧ Encodes x.2.2.1 [0xCB, x.2.2.2] ∧
    ∃ w f, Rotates x.1 s.a s.f.c w f ∧ f.z = false ∧
      exec x.2.1 s = .next { s with a := w, f := f, cyc := s.cyc + 1 } ∧
      exec x.2.2.1 s =
        .next { s with a := w, f := { f with z := decide (w.toNat = 0) }, cyc := s.cyc + 2 }

/-- O54 (R275, R280, R282, R284, R286, R288, R290, R292, R294). Each completes in every state with
the register shifted or rotated by one bit as its row of the function table says (SWAP exchanging
the nibbles), C the bit that fell out (0 for SWAP), Z exactly when the result is 0, N and H clear, 2
added to the counter and nothing else changed. -/
def Obligations.SecondaryRotatesOnRegisters : Prop :=
  ∀ (s : State) (r : Reg8), ∀ x ∈ ([(.rlc, .rlcR r, 0x00), (.rrc, .rrcR r, 0x08), (.rl, .rlR r, 0x10),
      (.rr, .rrR r, 0x18), (.sla, .slaR r, 0x20), (.sra, .sraR r, 0x28), (.swap, .swapR r, 0x30),
      (.srl, .srlR r, 0x38)] : List (Rot × Instr × Nat)),
    Encodes x.2.1 [0xCB, BitVec.ofNat 8 (x.2.2 + r.code)] ∧
    ∃ w f, Rotates x.1 (s.reg r) s.f.c w f ∧ (f.z = true ↔ w.toNat = 0) ∧
      exec x.2.1 s = .next { s.setReg r w with f := f, cyc := s.cyc + 2 }

/-- O55 (R281, R283, R285, R287, R289, R291, R293, R295). Each reads the byte at HL, writes back the
shifted or rotated byte by one bus write, then sets C to the bit that fell out (0 for SWAP), Z
exactly when the result is 0, clears N and H and adds 4; nothing else changes. A fault on the read
changes nothing else, one on the write leaves the flags. -/
def Obligations.SecondaryRotatesOnMemory : Prop :=
  ∀ s : State, ∀ x ∈ ([(.rlc, .rlcHl, 0x06), (.rrc, .rrcHl, 0x0E), (.rl, .rlHl, 0x16),
      (.rr, .rrHl, 0x1E), (.sla, .slaHl, 0x26), (.sra, .sraHl, 0x2E), (.swap, .swapHl, 0x36),
      (.srl, .srlHl, 0x3E)] : List (Rot × Instr × Byte)),
    Encodes x.2.1 [0xCB, x.2.2] ∧
    ReadsThen s s.hl (exec x.2.1 s) fun v t =>
      ∃ w f, Rotates x.1 v s.f.c w f ∧ (f.z = true ↔ w.toNat = 0) ∧
        WritesThen t s.hl w (exec x.2.1 s) fun u =>
          exec x.2.1 s = .next { u with f := f, cyc := u.cyc + 4 }

/-- O56 (R296, R297, R298, R299, R300, R301). For bit indexes 0 to 7: BIT sets Z to the complement
of the bit, clears N, sets H, keeps C and writes neither register nor memory; RES clears and SET
sets that one bit, every other bit and all flags as before; the (HL) forms of RES and SET read, then
write the byte at HL. Costs 2 on a register, 3 for BIT and 4 for RES and SET on (HL). -/
def Obligations.BitResetAndSet : Prop :=
  ∀ (s : State) (b : Nat), b < 8 →
    let one : Byte → Byte → Bool → Prop := fun v w x =>
      ∀ j, j < 8 → w.getLsbD j = if j = b then x else v.getLsbD j
    (∀ r : Reg8, Encodes (.bitBR b r) [0xCB, BitVec.ofNat 8 (0x40 + 8 * b + r.code)] ∧
      exec (.bitBR b r) s =
        .next { s with f := ⟨!(s.reg r).getLsbD b, false, true, s.f.c⟩, cyc := s.cyc + 2 }) ∧
    (Encodes (.bitBHl b) [0xCB, BitVec.ofNat 8 (0x46 + 8 * b)] ∧
      ReadsThen s s.hl (exec (.bitBHl b) s) fun v t =>
        exec (.bitBHl b) s =
          .next { t with f := ⟨!v.getLsbD b, false, true, s.f.c⟩, cyc := t.cyc + 3 }) ∧
    (∀ r : Reg8, Encodes (.resBR b r) [0xCB, BitVec.ofNat 8 (0x80 + 8 * b + r.code)] ∧
      ∃ w, one (s.reg r) w false ∧
        exec (.resBR b r) s = .next { s.setReg r w with cyc := s.cyc + 2 }) ∧
    (Encodes (.resBHl b) [0xCB, BitVec.ofNat 8 (0x86 + 8 * b)] ∧
      ReadsThen s s.hl (exec (.resBHl b) s) fun v t =>
        ∃ w, one v w false ∧ WritesThen t s.hl w (exec (.resBHl b) s) fun u =>
          exec (.resBHl b) s = .next { u with cyc := u.cyc + 4 }) ∧
    (∀ r : Reg8, Encodes (.setBR b r) [0xCB, BitVec.ofNat 8 (0xC0 + 8 * b + r.code)] ∧
      ∃ w, one (s.reg r) w true ∧
        exec (.setBR b r) s = .next { s.setReg r w with cyc := s.cyc + 2 }) ∧
    (Encodes (.setBHl b) [0xCB, BitVec.ofNat 8 (0xC6 + 8 * b)] ∧
      ReadsThen s s.hl (exec (.setBHl b) s) fun v t =>
        ∃ w, one v w true ∧ WritesThen t s.hl w (exec (.setBHl b) s) fun u =>
          exec (.setBHl b) s = .next { u with cyc := u.cyc + 4 })

/-- O57 (R321, R322, R323, R324, R325). JP a16, JP HL and JR e set PC to the immediate, to HL's
value and to PC plus the signed displacement modulo 65536; JP cc and JR cc do so when the condition
holds (NZ, Z on fZ; NC, C on fC) and otherwise only add the lower cost. No memory is read, no flag
or other register changes. -/
def Obligations.Jumps : Prop :=
  ∀ s : State,
    let holds : Cond → Prop := fun cc => match cc with
      | .nz => s.f.z = false | .z => s.f.z = true | .nc => s.f.c = false | .c => s.f.c = true
    (∀ lo hi : Byte, Encodes (.jpA16 (hi ++ lo)) [0xC3, lo, hi] ∧
      exec (.jpA16 (hi ++ lo)) s = .next { s with pc := hi ++ lo, cyc := s.cyc + 4 }) ∧
    (∀ (cc : Cond) (lo hi : Byte),
      Encodes (.jpCcA16 cc (hi ++ lo)) [BitVec.ofNat 8 (0xC2 + 8 * cc.code), lo, hi] ∧
      (holds cc → exec (.jpCcA16 cc (hi ++ lo)) s =
        .next { s with pc := hi ++ lo, cyc := s.cyc + 4 }) ∧
      (¬ holds cc → exec (.jpCcA16 cc (hi ++ lo)) s = .next { s with cyc := s.cyc + 3 })) ∧
    (Encodes .jpHl [0xE9] ∧ exec .jpHl s = .next { s with pc := s.h ++ s.l, cyc := s.cyc + 1 }) ∧
    (∀ e : Byte, ∃ target : Word, (target.toNat : Int) = (s.pc.toNat + e.toInt) % 65536 ∧
      Encodes (.jrE e) [0x18, e] ∧
      exec (.jrE e) s = .next { s with pc := target, cyc := s.cyc + 3 } ∧
      ∀ cc : Cond, Encodes (.jrCcE cc e) [BitVec.ofNat 8 (0x20 + 8 * cc.code), e] ∧
        (holds cc → exec (.jrCcE cc e) s = .next { s with pc := target, cyc := s.cyc + 3 }) ∧
        (¬ holds cc → exec (.jrCcE cc e) s = .next { s with cyc := s.cyc + 2 }))

/-- O58 (R326, R327, R328, R329, R330, R331). CALL a16, a taken CALL cc and RST t push PC (already
past the instruction), high byte first, and set PC to the immediate or to 8t, costing 6, 6 and 4; a
CALL cc not taken only adds 3; a push that faults leaves PC unchanged. No flag changes, and RST
leaves IME, IF and IE. RET, RETI and a taken RET cc set PC to the two bytes at SP and SP+1, low byte
first, leave SP two higher and cost 4, 4 and 5; RETI also sets IME; a RET cc not taken only adds 2.
A pop that faults leaves PC and IME unchanged. No flag changes. -/
def Obligations.CallsAndReturns : Prop :=
  ∀ s : State,
    (∀ lo hi : Byte, Encodes (.callA16 (hi ++ lo)) [0xCD, lo, hi] ∧
      PushesThen s s.pc (exec (.callA16 (hi ++ lo)) s) fun u =>
        exec (.callA16 (hi ++ lo)) s = .next { u with pc := hi ++ lo, cyc := u.cyc + 6 }) ∧
    (∀ (cc : Cond) (lo hi : Byte),
      Encodes (.callCcA16 cc (hi ++ lo)) [BitVec.ofNat 8 (0xC4 + 8 * cc.code), lo, hi] ∧
      (s.cond cc = true → PushesThen s s.pc (exec (.callCcA16 cc (hi ++ lo)) s) fun u =>
        exec (.callCcA16 cc (hi ++ lo)) s = .next { u with pc := hi ++ lo, cyc := u.cyc + 6 }) ∧
      (s.cond cc = false →
        exec (.callCcA16 cc (hi ++ lo)) s = .next { s with cyc := s.cyc + 3 })) ∧
    (∀ t : Nat, t < 8 → Encodes (.rstT t) [BitVec.ofNat 8 (0xC7 + 8 * t)] ∧
      PushesThen s s.pc (exec (.rstT t) s) fun u =>
        exec (.rstT t) s = .next { u with pc := BitVec.ofNat 16 (8 * t), cyc := u.cyc + 4 }) ∧
    (Encodes .ret [0xC9] ∧ PopsThen s (exec .ret s) fun hi lo u =>
      exec .ret s = .next { u with pc := hi ++ lo, cyc := u.cyc + 4 }) ∧
    (Encodes .reti [0xD9] ∧ PopsThen s (exec .reti s) fun hi lo u =>
      exec .reti s = .next { u with pc := hi ++ lo, ime := true, cyc := u.cyc + 4 }) ∧
    (∀ cc : Cond, Encodes (.retCc cc) [BitVec.ofNat 8 (0xC0 + 8 * cc.code)] ∧
      (s.cond cc = true → PopsThen s (exec (.retCc cc) s) fun hi lo u =>
        exec (.retCc cc) s = .next { u with pc := hi ++ lo, cyc := u.cyc + 5 }) ∧
      (s.cond cc = false → exec (.retCc cc) s = .next { s with cyc := s.cyc + 2 }))

/-- O59 (R350, R352, R354, R355, R356). NOP only adds 1; HALT sets halted, STOP (its second byte
ignored) sets stopped, DI clears and EI sets IME at once; each adds 1 to the counter and changes
nothing else. -/
def Obligations.SystemInstructions : Prop :=
  ∀ s : State,
    (Encodes .nop [0x00] ∧ exec .nop s = .next { s with cyc := s.cyc + 1 }) ∧
    (Encodes .halt [0x76] ∧ exec .halt s = .next { s with halted := true, cyc := s.cyc + 1 }) ∧
    (∀ pad : Byte, Encodes (.stop pad) [0x10, pad] ∧
      exec (.stop pad) s = .next { s with stopped := true, cyc := s.cyc + 1 }) ∧
    (Encodes .di [0xF3] ∧ exec .di s = .next { s with ime := false, cyc := s.cyc + 1 }) ∧
    (Encodes .ei [0xFB] ∧ exec .ei s = .next { s with ime := true, cyc := s.cyc + 1 })

/-- O60 (R357). Each ILLEGAL row is encoded by its own byte; its effect in every state is to put
Abort(IllegalOpcode) with that byte into the fault latch and nothing else; and when the byte stands
at PC a step does that with PC one further, after which no step changes anything. -/
def Obligations.IllegalOpcodes : Prop :=
  ∀ (s : State) (op : Byte) (i : Instr), (op, i) ∈ undefinedRows →
    Encodes i [op] ∧ exec i s = .next { s with fault := some (.illegalOpcode op) } ∧
    (s.dispatches → s.reads s.pc op →
      step s = .next { s with pc := s.pc + 1, fault := some (.illegalOpcode op) } ∧
      step { s with pc := s.pc + 1, fault := some (.illegalOpcode op) } =
        .next { s with pc := s.pc + 1, fault := some (.illegalOpcode op) })
end

