-- ==== Sys2Proof/Laws/Memory.lean ====
section
/-! SUPPORT. The laws of the storage and of the device states, once for any list of keys and values: what a
read gives after a write, and that every write keeps the canonical form. -/

namespace Sys2Proof.Machine

variable {β : Type} {d : β}

theorem Cells.read_nil (x : Nat) : Cells.read d [] x = d := rfl

theorem Cells.read_cons (k x : Nat) (v : β) (m : List (Nat × β)) :
    Cells.read d ((k, v) :: m) x = if k = x then v else Cells.read d m x := rfl

variable [DecidableEq β]

/-- A cell at or below the bound of a canonical list is not listed. -/
theorem Cells.read_of_wfAbove {lo x : Nat} {m : List (Nat × β)} (h : Cells.wfAbove d lo m = true)
    (hx : x ≤ lo) : Cells.read d m x = d := by
  induction m generalizing lo with
  | nil => rfl
  | cons p m ih =>
    obtain ⟨k, v⟩ := p
    simp only [Cells.wfAbove, Bool.and_eq_true, decide_eq_true_eq] at h
    rw [Cells.read_cons, if_neg (by omega), ih h.2 (by omega)]

theorem Cells.wfAbove_mono {lo lo' : Nat} {m : List (Nat × β)} (h : Cells.wfAbove d lo m = true)
    (hle : lo' ≤ lo) : Cells.wfAbove d lo' m = true := by
  cases m with
  | nil => rfl
  | cons p m =>
    simp only [Cells.wfAbove, Bool.and_eq_true, decide_eq_true_eq] at h ⊢
    exact ⟨⟨by omega, h.1.2⟩, h.2⟩

theorem Cells.wf_cons {k : Nat} {v : β} {m : List (Nat × β)} :
    Cells.wf d ((k, v) :: m) = true ↔ v ≠ d ∧ Cells.wfAbove d k m = true := by
  simp [Cells.wf]

theorem Cells.wf_of_wfAbove {lo : Nat} {m : List (Nat × β)} (h : Cells.wfAbove d lo m = true) :
    Cells.wf d m = true := by
  cases m with
  | nil => rfl
  | cons p m =>
    simp only [Cells.wfAbove, Bool.and_eq_true, decide_eq_true_eq] at h
    exact Cells.wf_cons.2 ⟨h.1.2, h.2⟩

/-- A write leaves every other cell as it was. -/
theorem Cells.read_write_other {x y : Nat} (m : List (Nat × β)) (w : β) (h : y ≠ x) :
    Cells.read d (Cells.write d m x w) y = Cells.read d m y := by
  induction m with
  | nil =>
    simp only [Cells.write]
    split
    · rfl
    · rw [Cells.read_cons, if_neg (Ne.symm h)]
  | cons p m ih =>
    obtain ⟨k, v⟩ := p
    simp only [Cells.write]
    split
    · split
      · rfl
      · rw [Cells.read_cons x, if_neg (Ne.symm h)]
    · split
      · subst_vars
        split
        · rw [Cells.read_cons, if_neg (Ne.symm h)]
        · rw [Cells.read_cons, if_neg (Ne.symm h), Cells.read_cons, if_neg (Ne.symm h)]
      · rw [Cells.read_cons, Cells.read_cons, ih]

/-- A canonical storage reads back what was written. -/
theorem Cells.read_write_same {x : Nat} {m : List (Nat × β)} (w : β) (h : Cells.wf d m = true) :
    Cells.read d (Cells.write d m x w) x = w := by
  induction m with
  | nil =>
    simp only [Cells.write]
    split
    · rename_i hw; rw [hw]; rfl
    · rw [Cells.read_cons, if_pos rfl]
  | cons p m ih =>
    obtain ⟨k, v⟩ := p
    obtain ⟨-, hm⟩ := Cells.wf_cons.1 h
    simp only [Cells.write]
    split
    · split
      · rename_i hlt hw
        rw [Cells.read_cons, if_neg (by omega), hw, Cells.read_of_wfAbove hm (by omega)]
      · rw [Cells.read_cons, if_pos rfl]
    · split
      · subst_vars
        split
        · rename_i hw; rw [hw, Cells.read_of_wfAbove hm le_rfl]
        · rw [Cells.read_cons, if_pos rfl]
      · rename_i hne
        rw [Cells.read_cons, if_neg (Ne.symm hne), ih (Cells.wf_of_wfAbove hm)]

theorem Cells.write_wfAbove {lo x : Nat} {m : List (Nat × β)} (w : β) (h : Cells.wfAbove d lo m = true)
    (hx : lo < x) : Cells.wfAbove d lo (Cells.write d m x w) = true := by
  induction m generalizing lo with
  | nil =>
    simp only [Cells.write]
    split
    · rfl
    · simp [Cells.wfAbove, *]
  | cons p m ih =>
    obtain ⟨k, v⟩ := p
    simp only [Cells.wfAbove, Bool.and_eq_true, decide_eq_true_eq] at h
    simp only [Cells.write]
    split
    · split
      · simp [Cells.wfAbove, h]
      · simp [Cells.wfAbove, *]
    · split
      · subst_vars
        split
        · exact Cells.wfAbove_mono h.2 (by omega)
        · simp [Cells.wfAbove, *]
      · simp only [Cells.wfAbove, Bool.and_eq_true, decide_eq_true_eq]
        exact ⟨h.1, ih h.2 (by omega)⟩

/-- Every write keeps the canonical form. -/
theorem Cells.write_wf {m : List (Nat × β)} (x : Nat) (w : β) (h : Cells.wf d m = true) :
    Cells.wf d (Cells.write d m x w) = true := by
  cases m with
  | nil =>
    simp only [Cells.write]
    split
    · rfl
    · simp [Cells.wf, Cells.wfAbove, *]
  | cons p m =>
    obtain ⟨k, v⟩ := p
    obtain ⟨hv, hm⟩ := Cells.wf_cons.1 h
    simp only [Cells.write]
    split
    · split
      · exact h
      · simp [Cells.wf, Cells.wfAbove, *]
    · split
      · subst_vars
        split
        · exact Cells.wf_of_wfAbove hm
        · exact Cells.wf_cons.2 ⟨by assumption, hm⟩
      · exact Cells.wf_cons.2 ⟨hv, Cells.write_wfAbove w hm (by omega)⟩

/-! ## The storage -/

theorem Memory.read_write_other {x y : Nat} (m : Memory) (w : Byte) (h : y ≠ x) :
    (m.write x w).read y = m.read y := Cells.read_write_other m w h

theorem Memory.read_write_same {x : Nat} {m : Memory} (w : Byte) (h : m.wf = true) :
    (m.write x w).read x = w := Cells.read_write_same w h

theorem Memory.write_wf {m : Memory} (x : Nat) (w : Byte) (h : m.wf = true) :
    (m.write x w).wf = true := Cells.write_wf x w h

/-! ## The device states -/

theorem DeviceStates.read_write_other {x y : Nat} (m : DeviceStates) (q : Nat) (h : y ≠ x) :
    (m.write x q).read y = m.read y := Cells.read_write_other m q h

theorem DeviceStates.read_write_same {x : Nat} {m : DeviceStates} (q : Nat) (h : m.wf = true) :
    (m.write x q).read x = q := Cells.read_write_same q h

theorem DeviceStates.write_wf {m : DeviceStates} (x q : Nat) (h : m.wf = true) :
    (m.write x q).wf = true := Cells.write_wf x q h

end Sys2Proof.Machine
end

