-- ==== Sys2Proof/Laws/State.lean ====
section
/-! SUPPORT. What each update of the state does to each field: one lemma per field per update, so that no
later proof unfolds a record update. -/

namespace Sys2Proof.Machine

/-! ## Pairs -/

@[simp] theorem State.setBc_a (s : State) (v : Word) : (s.setBc v).a = s.a := rfl
@[simp] theorem State.setBc_f (s : State) (v : Word) : (s.setBc v).f = s.f := rfl
@[simp] theorem State.setBc_b (s : State) (v : Word) : (s.setBc v).b = highByte v := rfl
@[simp] theorem State.setBc_c (s : State) (v : Word) : (s.setBc v).c = lowByte v := rfl
@[simp] theorem State.setBc_d (s : State) (v : Word) : (s.setBc v).d = s.d := rfl
@[simp] theorem State.setBc_e (s : State) (v : Word) : (s.setBc v).e = s.e := rfl
@[simp] theorem State.setBc_h (s : State) (v : Word) : (s.setBc v).h = s.h := rfl
@[simp] theorem State.setBc_l (s : State) (v : Word) : (s.setBc v).l = s.l := rfl
@[simp] theorem State.setBc_sp (s : State) (v : Word) : (s.setBc v).sp = s.sp := rfl
@[simp] theorem State.setBc_pc (s : State) (v : Word) : (s.setBc v).pc = s.pc := rfl
@[simp] theorem State.setBc_cyc (s : State) (v : Word) : (s.setBc v).cyc = s.cyc := rfl
@[simp] theorem State.setBc_ime (s : State) (v : Word) : (s.setBc v).ime = s.ime := rfl
@[simp] theorem State.setBc_ie (s : State) (v : Word) : (s.setBc v).ie = s.ie := rfl
@[simp] theorem State.setBc_ifl (s : State) (v : Word) : (s.setBc v).ifl = s.ifl := rfl
@[simp] theorem State.setBc_halted (s : State) (v : Word) : (s.setBc v).halted = s.halted := rfl
@[simp] theorem State.setBc_stopped (s : State) (v : Word) : (s.setBc v).stopped = s.stopped := rfl
@[simp] theorem State.setBc_fault (s : State) (v : Word) : (s.setBc v).fault = s.fault := rfl
@[simp] theorem State.setBc_lock (s : State) (v : Word) : (s.setBc v).lock = s.lock := rfl
@[simp] theorem State.setBc_bus (s : State) (v : Word) : (s.setBc v).bus = s.bus := rfl
@[simp] theorem State.setBc_mem (s : State) (v : Word) : (s.setBc v).mem = s.mem := rfl
@[simp] theorem State.setBc_queue (s : State) (v : Word) : (s.setBc v).queue = s.queue := rfl
@[simp] theorem State.setBc_cfg (s : State) (v : Word) : (s.setBc v).cfg = s.cfg := rfl
@[simp] theorem State.setBc_inputs (s : State) (v : Word) : (s.setBc v).inputs = s.inputs := rfl
@[simp] theorem State.setBc_reply (s : State) (v : Word) : (s.setBc v).reply = s.reply := rfl
@[simp] theorem State.setBc_devices (s : State) (v : Word) : (s.setBc v).devices = s.devices := rfl
@[simp] theorem State.setBc_freeRun (s : State) (v : Word) : (s.setBc v).freeRun = s.freeRun := rfl
@[simp] theorem State.setBc_turn (s : State) (v : Word) : (s.setBc v).turn = s.turn := rfl

@[simp] theorem State.setDe_a (s : State) (v : Word) : (s.setDe v).a = s.a := rfl
@[simp] theorem State.setDe_f (s : State) (v : Word) : (s.setDe v).f = s.f := rfl
@[simp] theorem State.setDe_b (s : State) (v : Word) : (s.setDe v).b = s.b := rfl
@[simp] theorem State.setDe_c (s : State) (v : Word) : (s.setDe v).c = s.c := rfl
@[simp] theorem State.setDe_d (s : State) (v : Word) : (s.setDe v).d = highByte v := rfl
@[simp] theorem State.setDe_e (s : State) (v : Word) : (s.setDe v).e = lowByte v := rfl
@[simp] theorem State.setDe_h (s : State) (v : Word) : (s.setDe v).h = s.h := rfl
@[simp] theorem State.setDe_l (s : State) (v : Word) : (s.setDe v).l = s.l := rfl
@[simp] theorem State.setDe_sp (s : State) (v : Word) : (s.setDe v).sp = s.sp := rfl
@[simp] theorem State.setDe_pc (s : State) (v : Word) : (s.setDe v).pc = s.pc := rfl
@[simp] theorem State.setDe_cyc (s : State) (v : Word) : (s.setDe v).cyc = s.cyc := rfl
@[simp] theorem State.setDe_ime (s : State) (v : Word) : (s.setDe v).ime = s.ime := rfl
@[simp] theorem State.setDe_ie (s : State) (v : Word) : (s.setDe v).ie = s.ie := rfl
@[simp] theorem State.setDe_ifl (s : State) (v : Word) : (s.setDe v).ifl = s.ifl := rfl
@[simp] theorem State.setDe_halted (s : State) (v : Word) : (s.setDe v).halted = s.halted := rfl
@[simp] theorem State.setDe_stopped (s : State) (v : Word) : (s.setDe v).stopped = s.stopped := rfl
@[simp] theorem State.setDe_fault (s : State) (v : Word) : (s.setDe v).fault = s.fault := rfl
@[simp] theorem State.setDe_lock (s : State) (v : Word) : (s.setDe v).lock = s.lock := rfl
@[simp] theorem State.setDe_bus (s : State) (v : Word) : (s.setDe v).bus = s.bus := rfl
@[simp] theorem State.setDe_mem (s : State) (v : Word) : (s.setDe v).mem = s.mem := rfl
@[simp] theorem State.setDe_queue (s : State) (v : Word) : (s.setDe v).queue = s.queue := rfl
@[simp] theorem State.setDe_cfg (s : State) (v : Word) : (s.setDe v).cfg = s.cfg := rfl
@[simp] theorem State.setDe_inputs (s : State) (v : Word) : (s.setDe v).inputs = s.inputs := rfl
@[simp] theorem State.setDe_reply (s : State) (v : Word) : (s.setDe v).reply = s.reply := rfl
@[simp] theorem State.setDe_devices (s : State) (v : Word) : (s.setDe v).devices = s.devices := rfl
@[simp] theorem State.setDe_freeRun (s : State) (v : Word) : (s.setDe v).freeRun = s.freeRun := rfl
@[simp] theorem State.setDe_turn (s : State) (v : Word) : (s.setDe v).turn = s.turn := rfl

@[simp] theorem State.setHl_a (s : State) (v : Word) : (s.setHl v).a = s.a := rfl
@[simp] theorem State.setHl_f (s : State) (v : Word) : (s.setHl v).f = s.f := rfl
@[simp] theorem State.setHl_b (s : State) (v : Word) : (s.setHl v).b = s.b := rfl
@[simp] theorem State.setHl_c (s : State) (v : Word) : (s.setHl v).c = s.c := rfl
@[simp] theorem State.setHl_d (s : State) (v : Word) : (s.setHl v).d = s.d := rfl
@[simp] theorem State.setHl_e (s : State) (v : Word) : (s.setHl v).e = s.e := rfl
@[simp] theorem State.setHl_h (s : State) (v : Word) : (s.setHl v).h = highByte v := rfl
@[simp] theorem State.setHl_l (s : State) (v : Word) : (s.setHl v).l = lowByte v := rfl
@[simp] theorem State.setHl_sp (s : State) (v : Word) : (s.setHl v).sp = s.sp := rfl
@[simp] theorem State.setHl_pc (s : State) (v : Word) : (s.setHl v).pc = s.pc := rfl
@[simp] theorem State.setHl_cyc (s : State) (v : Word) : (s.setHl v).cyc = s.cyc := rfl
@[simp] theorem State.setHl_ime (s : State) (v : Word) : (s.setHl v).ime = s.ime := rfl
@[simp] theorem State.setHl_ie (s : State) (v : Word) : (s.setHl v).ie = s.ie := rfl
@[simp] theorem State.setHl_ifl (s : State) (v : Word) : (s.setHl v).ifl = s.ifl := rfl
@[simp] theorem State.setHl_halted (s : State) (v : Word) : (s.setHl v).halted = s.halted := rfl
@[simp] theorem State.setHl_stopped (s : State) (v : Word) : (s.setHl v).stopped = s.stopped := rfl
@[simp] theorem State.setHl_fault (s : State) (v : Word) : (s.setHl v).fault = s.fault := rfl
@[simp] theorem State.setHl_lock (s : State) (v : Word) : (s.setHl v).lock = s.lock := rfl
@[simp] theorem State.setHl_bus (s : State) (v : Word) : (s.setHl v).bus = s.bus := rfl
@[simp] theorem State.setHl_mem (s : State) (v : Word) : (s.setHl v).mem = s.mem := rfl
@[simp] theorem State.setHl_queue (s : State) (v : Word) : (s.setHl v).queue = s.queue := rfl
@[simp] theorem State.setHl_cfg (s : State) (v : Word) : (s.setHl v).cfg = s.cfg := rfl
@[simp] theorem State.setHl_inputs (s : State) (v : Word) : (s.setHl v).inputs = s.inputs := rfl
@[simp] theorem State.setHl_reply (s : State) (v : Word) : (s.setHl v).reply = s.reply := rfl
@[simp] theorem State.setHl_devices (s : State) (v : Word) : (s.setHl v).devices = s.devices := rfl
@[simp] theorem State.setHl_freeRun (s : State) (v : Word) : (s.setHl v).freeRun = s.freeRun := rfl
@[simp] theorem State.setHl_turn (s : State) (v : Word) : (s.setHl v).turn = s.turn := rfl

@[simp] theorem State.setAf_a (s : State) (v : Word) : (s.setAf v).a = highByte v := rfl
@[simp] theorem State.setAf_f (s : State) (v : Word) : (s.setAf v).f = Flags.ofByte (lowByte v) :=
  rfl
@[simp] theorem State.setAf_b (s : State) (v : Word) : (s.setAf v).b = s.b := rfl
@[simp] theorem State.setAf_c (s : State) (v : Word) : (s.setAf v).c = s.c := rfl
@[simp] theorem State.setAf_d (s : State) (v : Word) : (s.setAf v).d = s.d := rfl
@[simp] theorem State.setAf_e (s : State) (v : Word) : (s.setAf v).e = s.e := rfl
@[simp] theorem State.setAf_h (s : State) (v : Word) : (s.setAf v).h = s.h := rfl
@[simp] theorem State.setAf_l (s : State) (v : Word) : (s.setAf v).l = s.l := rfl
@[simp] theorem State.setAf_sp (s : State) (v : Word) : (s.setAf v).sp = s.sp := rfl
@[simp] theorem State.setAf_pc (s : State) (v : Word) : (s.setAf v).pc = s.pc := rfl
@[simp] theorem State.setAf_cyc (s : State) (v : Word) : (s.setAf v).cyc = s.cyc := rfl
@[simp] theorem State.setAf_ime (s : State) (v : Word) : (s.setAf v).ime = s.ime := rfl
@[simp] theorem State.setAf_ie (s : State) (v : Word) : (s.setAf v).ie = s.ie := rfl
@[simp] theorem State.setAf_ifl (s : State) (v : Word) : (s.setAf v).ifl = s.ifl := rfl
@[simp] theorem State.setAf_halted (s : State) (v : Word) : (s.setAf v).halted = s.halted := rfl
@[simp] theorem State.setAf_stopped (s : State) (v : Word) : (s.setAf v).stopped = s.stopped := rfl
@[simp] theorem State.setAf_fault (s : State) (v : Word) : (s.setAf v).fault = s.fault := rfl
@[simp] theorem State.setAf_lock (s : State) (v : Word) : (s.setAf v).lock = s.lock := rfl
@[simp] theorem State.setAf_bus (s : State) (v : Word) : (s.setAf v).bus = s.bus := rfl
@[simp] theorem State.setAf_mem (s : State) (v : Word) : (s.setAf v).mem = s.mem := rfl
@[simp] theorem State.setAf_queue (s : State) (v : Word) : (s.setAf v).queue = s.queue := rfl
@[simp] theorem State.setAf_cfg (s : State) (v : Word) : (s.setAf v).cfg = s.cfg := rfl
@[simp] theorem State.setAf_inputs (s : State) (v : Word) : (s.setAf v).inputs = s.inputs := rfl
@[simp] theorem State.setAf_reply (s : State) (v : Word) : (s.setAf v).reply = s.reply := rfl
@[simp] theorem State.setAf_devices (s : State) (v : Word) : (s.setAf v).devices = s.devices := rfl
@[simp] theorem State.setAf_freeRun (s : State) (v : Word) : (s.setAf v).freeRun = s.freeRun := rfl
@[simp] theorem State.setAf_turn (s : State) (v : Word) : (s.setAf v).turn = s.turn := rfl

/-! ## Operand fields -/

@[simp] theorem State.setReg_f (s : State) (r : Reg8) (v : Byte) : (s.setReg r v).f = s.f :=
  by cases r <;> rfl
@[simp] theorem State.setReg_sp (s : State) (r : Reg8) (v : Byte) : (s.setReg r v).sp = s.sp :=
  by cases r <;> rfl
@[simp] theorem State.setReg_pc (s : State) (r : Reg8) (v : Byte) : (s.setReg r v).pc = s.pc :=
  by cases r <;> rfl
@[simp] theorem State.setReg_cyc (s : State) (r : Reg8) (v : Byte) : (s.setReg r v).cyc = s.cyc :=
  by cases r <;> rfl
@[simp] theorem State.setReg_ime (s : State) (r : Reg8) (v : Byte) : (s.setReg r v).ime = s.ime :=
  by cases r <;> rfl
@[simp] theorem State.setReg_ie (s : State) (r : Reg8) (v : Byte) : (s.setReg r v).ie = s.ie :=
  by cases r <;> rfl
@[simp] theorem State.setReg_ifl (s : State) (r : Reg8) (v : Byte) : (s.setReg r v).ifl = s.ifl :=
  by cases r <;> rfl
@[simp] theorem State.setReg_halted (s : State) (r : Reg8) (v : Byte) : (s.setReg r v).halted = s.halted :=
  by cases r <;> rfl
@[simp] theorem State.setReg_stopped (s : State) (r : Reg8) (v : Byte) : (s.setReg r v).stopped = s.stopped :=
  by cases r <;> rfl
@[simp] theorem State.setReg_fault (s : State) (r : Reg8) (v : Byte) : (s.setReg r v).fault = s.fault :=
  by cases r <;> rfl
@[simp] theorem State.setReg_lock (s : State) (r : Reg8) (v : Byte) : (s.setReg r v).lock = s.lock :=
  by cases r <;> rfl
@[simp] theorem State.setReg_bus (s : State) (r : Reg8) (v : Byte) : (s.setReg r v).bus = s.bus :=
  by cases r <;> rfl
@[simp] theorem State.setReg_mem (s : State) (r : Reg8) (v : Byte) : (s.setReg r v).mem = s.mem :=
  by cases r <;> rfl
@[simp] theorem State.setReg_queue (s : State) (r : Reg8) (v : Byte) : (s.setReg r v).queue = s.queue :=
  by cases r <;> rfl
@[simp] theorem State.setReg_cfg (s : State) (r : Reg8) (v : Byte) : (s.setReg r v).cfg = s.cfg :=
  by cases r <;> rfl
@[simp] theorem State.setReg_inputs (s : State) (r : Reg8) (v : Byte) : (s.setReg r v).inputs = s.inputs :=
  by cases r <;> rfl
@[simp] theorem State.setReg_reply (s : State) (r : Reg8) (v : Byte) : (s.setReg r v).reply = s.reply :=
  by cases r <;> rfl
@[simp] theorem State.setReg_devices (s : State) (r : Reg8) (v : Byte) : (s.setReg r v).devices = s.devices :=
  by cases r <;> rfl
@[simp] theorem State.setReg_freeRun (s : State) (r : Reg8) (v : Byte) : (s.setReg r v).freeRun = s.freeRun :=
  by cases r <;> rfl
@[simp] theorem State.setReg_turn (s : State) (r : Reg8) (v : Byte) : (s.setReg r v).turn = s.turn :=
  by cases r <;> rfl

/-- A register write is read back from that register and from no other. -/
@[simp] theorem State.reg_setReg (s : State) (r r' : Reg8) (v : Byte) :
    (s.setReg r v).reg r' = if r' = r then v else s.reg r' := by
  cases r <;> cases r' <;> rfl

@[simp] theorem State.setPair_a (s : State) (rp : Rp) (v : Word) : (s.setPair rp v).a = s.a :=
  by cases rp <;> rfl
@[simp] theorem State.setPair_f (s : State) (rp : Rp) (v : Word) : (s.setPair rp v).f = s.f :=
  by cases rp <;> rfl
@[simp] theorem State.setPair_pc (s : State) (rp : Rp) (v : Word) : (s.setPair rp v).pc = s.pc :=
  by cases rp <;> rfl
@[simp] theorem State.setPair_cyc (s : State) (rp : Rp) (v : Word) : (s.setPair rp v).cyc = s.cyc :=
  by cases rp <;> rfl
@[simp] theorem State.setPair_ime (s : State) (rp : Rp) (v : Word) : (s.setPair rp v).ime = s.ime :=
  by cases rp <;> rfl
@[simp] theorem State.setPair_ie (s : State) (rp : Rp) (v : Word) : (s.setPair rp v).ie = s.ie :=
  by cases rp <;> rfl
@[simp] theorem State.setPair_ifl (s : State) (rp : Rp) (v : Word) : (s.setPair rp v).ifl = s.ifl :=
  by cases rp <;> rfl
@[simp] theorem State.setPair_halted (s : State) (rp : Rp) (v : Word) : (s.setPair rp v).halted = s.halted :=
  by cases rp <;> rfl
@[simp] theorem State.setPair_stopped (s : State) (rp : Rp) (v : Word) : (s.setPair rp v).stopped = s.stopped :=
  by cases rp <;> rfl
@[simp] theorem State.setPair_fault (s : State) (rp : Rp) (v : Word) : (s.setPair rp v).fault = s.fault :=
  by cases rp <;> rfl
@[simp] theorem State.setPair_lock (s : State) (rp : Rp) (v : Word) : (s.setPair rp v).lock = s.lock :=
  by cases rp <;> rfl
@[simp] theorem State.setPair_bus (s : State) (rp : Rp) (v : Word) : (s.setPair rp v).bus = s.bus :=
  by cases rp <;> rfl
@[simp] theorem State.setPair_mem (s : State) (rp : Rp) (v : Word) : (s.setPair rp v).mem = s.mem :=
  by cases rp <;> rfl
@[simp] theorem State.setPair_queue (s : State) (rp : Rp) (v : Word) : (s.setPair rp v).queue = s.queue :=
  by cases rp <;> rfl
@[simp] theorem State.setPair_cfg (s : State) (rp : Rp) (v : Word) : (s.setPair rp v).cfg = s.cfg :=
  by cases rp <;> rfl
@[simp] theorem State.setPair_inputs (s : State) (rp : Rp) (v : Word) : (s.setPair rp v).inputs = s.inputs :=
  by cases rp <;> rfl
@[simp] theorem State.setPair_reply (s : State) (rp : Rp) (v : Word) : (s.setPair rp v).reply = s.reply :=
  by cases rp <;> rfl
@[simp] theorem State.setPair_devices (s : State) (rp : Rp) (v : Word) : (s.setPair rp v).devices = s.devices :=
  by cases rp <;> rfl
@[simp] theorem State.setPair_freeRun (s : State) (rp : Rp) (v : Word) : (s.setPair rp v).freeRun = s.freeRun :=
  by cases rp <;> rfl
@[simp] theorem State.setPair_turn (s : State) (rp : Rp) (v : Word) : (s.setPair rp v).turn = s.turn :=
  by cases rp <;> rfl

@[simp] theorem State.setStackPair_a (s : State) (rp : Rp2) (v : Word) : (s.setStackPair rp v).a = s.a :=
  by cases rp <;> rfl
@[simp] theorem State.setStackPair_f (s : State) (rp : Rp2) (v : Word) : (s.setStackPair rp v).f = s.f :=
  by cases rp <;> rfl
@[simp] theorem State.setStackPair_sp (s : State) (rp : Rp2) (v : Word) : (s.setStackPair rp v).sp = s.sp :=
  by cases rp <;> rfl
@[simp] theorem State.setStackPair_pc (s : State) (rp : Rp2) (v : Word) : (s.setStackPair rp v).pc = s.pc :=
  by cases rp <;> rfl
@[simp] theorem State.setStackPair_cyc (s : State) (rp : Rp2) (v : Word) : (s.setStackPair rp v).cyc = s.cyc :=
  by cases rp <;> rfl
@[simp] theorem State.setStackPair_ime (s : State) (rp : Rp2) (v : Word) : (s.setStackPair rp v).ime = s.ime :=
  by cases rp <;> rfl
@[simp] theorem State.setStackPair_ie (s : State) (rp : Rp2) (v : Word) : (s.setStackPair rp v).ie = s.ie :=
  by cases rp <;> rfl
@[simp] theorem State.setStackPair_ifl (s : State) (rp : Rp2) (v : Word) : (s.setStackPair rp v).ifl = s.ifl :=
  by cases rp <;> rfl
@[simp] theorem State.setStackPair_halted (s : State) (rp : Rp2) (v : Word) : (s.setStackPair rp v).halted = s.halted :=
  by cases rp <;> rfl
@[simp] theorem State.setStackPair_stopped (s : State) (rp : Rp2) (v : Word) : (s.setStackPair rp v).stopped = s.stopped :=
  by cases rp <;> rfl
@[simp] theorem State.setStackPair_fault (s : State) (rp : Rp2) (v : Word) : (s.setStackPair rp v).fault = s.fault :=
  by cases rp <;> rfl
@[simp] theorem State.setStackPair_lock (s : State) (rp : Rp2) (v : Word) : (s.setStackPair rp v).lock = s.lock :=
  by cases rp <;> rfl
@[simp] theorem State.setStackPair_bus (s : State) (rp : Rp2) (v : Word) : (s.setStackPair rp v).bus = s.bus :=
  by cases rp <;> rfl
@[simp] theorem State.setStackPair_mem (s : State) (rp : Rp2) (v : Word) : (s.setStackPair rp v).mem = s.mem :=
  by cases rp <;> rfl
@[simp] theorem State.setStackPair_queue (s : State) (rp : Rp2) (v : Word) : (s.setStackPair rp v).queue = s.queue :=
  by cases rp <;> rfl
@[simp] theorem State.setStackPair_cfg (s : State) (rp : Rp2) (v : Word) : (s.setStackPair rp v).cfg = s.cfg :=
  by cases rp <;> rfl
@[simp] theorem State.setStackPair_inputs (s : State) (rp : Rp2) (v : Word) : (s.setStackPair rp v).inputs = s.inputs :=
  by cases rp <;> rfl
@[simp] theorem State.setStackPair_reply (s : State) (rp : Rp2) (v : Word) : (s.setStackPair rp v).reply = s.reply :=
  by cases rp <;> rfl
@[simp] theorem State.setStackPair_devices (s : State) (rp : Rp2) (v : Word) : (s.setStackPair rp v).devices = s.devices :=
  by cases rp <;> rfl
@[simp] theorem State.setStackPair_freeRun (s : State) (rp : Rp2) (v : Word) : (s.setStackPair rp v).freeRun = s.freeRun :=
  by cases rp <;> rfl
@[simp] theorem State.setStackPair_turn (s : State) (rp : Rp2) (v : Word) : (s.setStackPair rp v).turn = s.turn :=
  by cases rp <;> rfl

/-! ## Counter, lock, interrupt requests -/

@[simp] theorem State.tick_a (s : State) (n : Nat) : (s.tick n).a = s.a := rfl
@[simp] theorem State.tick_f (s : State) (n : Nat) : (s.tick n).f = s.f := rfl
@[simp] theorem State.tick_b (s : State) (n : Nat) : (s.tick n).b = s.b := rfl
@[simp] theorem State.tick_c (s : State) (n : Nat) : (s.tick n).c = s.c := rfl
@[simp] theorem State.tick_d (s : State) (n : Nat) : (s.tick n).d = s.d := rfl
@[simp] theorem State.tick_e (s : State) (n : Nat) : (s.tick n).e = s.e := rfl
@[simp] theorem State.tick_h (s : State) (n : Nat) : (s.tick n).h = s.h := rfl
@[simp] theorem State.tick_l (s : State) (n : Nat) : (s.tick n).l = s.l := rfl
@[simp] theorem State.tick_sp (s : State) (n : Nat) : (s.tick n).sp = s.sp := rfl
@[simp] theorem State.tick_pc (s : State) (n : Nat) : (s.tick n).pc = s.pc := rfl
@[simp] theorem State.tick_cyc (s : State) (n : Nat) : (s.tick n).cyc = s.cyc + BitVec.ofNat 64 n :=
  rfl
@[simp] theorem State.tick_ime (s : State) (n : Nat) : (s.tick n).ime = s.ime := rfl
@[simp] theorem State.tick_ie (s : State) (n : Nat) : (s.tick n).ie = s.ie := rfl
@[simp] theorem State.tick_ifl (s : State) (n : Nat) : (s.tick n).ifl = s.ifl := rfl
@[simp] theorem State.tick_halted (s : State) (n : Nat) : (s.tick n).halted = s.halted := rfl
@[simp] theorem State.tick_stopped (s : State) (n : Nat) : (s.tick n).stopped = s.stopped := rfl
@[simp] theorem State.tick_fault (s : State) (n : Nat) : (s.tick n).fault = s.fault := rfl
@[simp] theorem State.tick_lock (s : State) (n : Nat) : (s.tick n).lock = s.lock := rfl
@[simp] theorem State.tick_bus (s : State) (n : Nat) : (s.tick n).bus = s.bus := rfl
@[simp] theorem State.tick_mem (s : State) (n : Nat) : (s.tick n).mem = s.mem := rfl
@[simp] theorem State.tick_queue (s : State) (n : Nat) : (s.tick n).queue = s.queue := rfl
@[simp] theorem State.tick_cfg (s : State) (n : Nat) : (s.tick n).cfg = s.cfg := rfl
@[simp] theorem State.tick_inputs (s : State) (n : Nat) : (s.tick n).inputs = s.inputs := rfl
@[simp] theorem State.tick_reply (s : State) (n : Nat) : (s.tick n).reply = s.reply := rfl
@[simp] theorem State.tick_devices (s : State) (n : Nat) : (s.tick n).devices = s.devices := rfl
@[simp] theorem State.tick_freeRun (s : State) (n : Nat) : (s.tick n).freeRun = s.freeRun := rfl
@[simp] theorem State.tick_turn (s : State) (n : Nat) : (s.tick n).turn = s.turn := rfl

@[simp] theorem State.lockBy_a (s : State) (m : Master) : (s.lockBy m).a = s.a := rfl
@[simp] theorem State.lockBy_f (s : State) (m : Master) : (s.lockBy m).f = s.f := rfl
@[simp] theorem State.lockBy_b (s : State) (m : Master) : (s.lockBy m).b = s.b := rfl
@[simp] theorem State.lockBy_c (s : State) (m : Master) : (s.lockBy m).c = s.c := rfl
@[simp] theorem State.lockBy_d (s : State) (m : Master) : (s.lockBy m).d = s.d := rfl
@[simp] theorem State.lockBy_e (s : State) (m : Master) : (s.lockBy m).e = s.e := rfl
@[simp] theorem State.lockBy_h (s : State) (m : Master) : (s.lockBy m).h = s.h := rfl
@[simp] theorem State.lockBy_l (s : State) (m : Master) : (s.lockBy m).l = s.l := rfl
@[simp] theorem State.lockBy_sp (s : State) (m : Master) : (s.lockBy m).sp = s.sp := rfl
@[simp] theorem State.lockBy_pc (s : State) (m : Master) : (s.lockBy m).pc = s.pc := rfl
@[simp] theorem State.lockBy_cyc (s : State) (m : Master) : (s.lockBy m).cyc = s.cyc := rfl
@[simp] theorem State.lockBy_ime (s : State) (m : Master) : (s.lockBy m).ime = s.ime := rfl
@[simp] theorem State.lockBy_ie (s : State) (m : Master) : (s.lockBy m).ie = s.ie := rfl
@[simp] theorem State.lockBy_ifl (s : State) (m : Master) : (s.lockBy m).ifl = s.ifl := rfl
@[simp] theorem State.lockBy_halted (s : State) (m : Master) : (s.lockBy m).halted = s.halted := rfl
@[simp] theorem State.lockBy_stopped (s : State) (m : Master) : (s.lockBy m).stopped = s.stopped :=
  rfl
@[simp] theorem State.lockBy_fault (s : State) (m : Master) : (s.lockBy m).fault = s.fault := rfl
@[simp] theorem State.lockBy_lock (s : State) (m : Master) : (s.lockBy m).lock = some m := rfl
@[simp] theorem State.lockBy_bus (s : State) (m : Master) : (s.lockBy m).bus = s.bus := rfl
@[simp] theorem State.lockBy_mem (s : State) (m : Master) : (s.lockBy m).mem = s.mem := rfl
@[simp] theorem State.lockBy_queue (s : State) (m : Master) : (s.lockBy m).queue = s.queue := rfl
@[simp] theorem State.lockBy_cfg (s : State) (m : Master) : (s.lockBy m).cfg = s.cfg := rfl
@[simp] theorem State.lockBy_inputs (s : State) (m : Master) : (s.lockBy m).inputs = s.inputs := rfl
@[simp] theorem State.lockBy_reply (s : State) (m : Master) : (s.lockBy m).reply = s.reply := rfl
@[simp] theorem State.lockBy_devices (s : State) (m : Master) : (s.lockBy m).devices = s.devices := rfl
@[simp] theorem State.lockBy_freeRun (s : State) (m : Master) : (s.lockBy m).freeRun = s.freeRun := rfl
@[simp] theorem State.lockBy_turn (s : State) (m : Master) : (s.lockBy m).turn = s.turn := rfl

@[simp] theorem State.unlockBy_a (s : State) (m : Master) : (s.unlockBy m).a = s.a :=
  by unfold State.unlockBy; split <;> rfl
@[simp] theorem State.unlockBy_f (s : State) (m : Master) : (s.unlockBy m).f = s.f :=
  by unfold State.unlockBy; split <;> rfl
@[simp] theorem State.unlockBy_b (s : State) (m : Master) : (s.unlockBy m).b = s.b :=
  by unfold State.unlockBy; split <;> rfl
@[simp] theorem State.unlockBy_c (s : State) (m : Master) : (s.unlockBy m).c = s.c :=
  by unfold State.unlockBy; split <;> rfl
@[simp] theorem State.unlockBy_d (s : State) (m : Master) : (s.unlockBy m).d = s.d :=
  by unfold State.unlockBy; split <;> rfl
@[simp] theorem State.unlockBy_e (s : State) (m : Master) : (s.unlockBy m).e = s.e :=
  by unfold State.unlockBy; split <;> rfl
@[simp] theorem State.unlockBy_h (s : State) (m : Master) : (s.unlockBy m).h = s.h :=
  by unfold State.unlockBy; split <;> rfl
@[simp] theorem State.unlockBy_l (s : State) (m : Master) : (s.unlockBy m).l = s.l :=
  by unfold State.unlockBy; split <;> rfl
@[simp] theorem State.unlockBy_sp (s : State) (m : Master) : (s.unlockBy m).sp = s.sp :=
  by unfold State.unlockBy; split <;> rfl
@[simp] theorem State.unlockBy_pc (s : State) (m : Master) : (s.unlockBy m).pc = s.pc :=
  by unfold State.unlockBy; split <;> rfl
@[simp] theorem State.unlockBy_cyc (s : State) (m : Master) : (s.unlockBy m).cyc = s.cyc :=
  by unfold State.unlockBy; split <;> rfl
@[simp] theorem State.unlockBy_ime (s : State) (m : Master) : (s.unlockBy m).ime = s.ime :=
  by unfold State.unlockBy; split <;> rfl
@[simp] theorem State.unlockBy_ie (s : State) (m : Master) : (s.unlockBy m).ie = s.ie :=
  by unfold State.unlockBy; split <;> rfl
@[simp] theorem State.unlockBy_ifl (s : State) (m : Master) : (s.unlockBy m).ifl = s.ifl :=
  by unfold State.unlockBy; split <;> rfl
@[simp] theorem State.unlockBy_halted (s : State) (m : Master) : (s.unlockBy m).halted = s.halted :=
  by unfold State.unlockBy; split <;> rfl
@[simp] theorem State.unlockBy_stopped (s : State) (m : Master) : (s.unlockBy m).stopped = s.stopped :=
  by unfold State.unlockBy; split <;> rfl
@[simp] theorem State.unlockBy_fault (s : State) (m : Master) : (s.unlockBy m).fault = s.fault :=
  by unfold State.unlockBy; split <;> rfl
@[simp] theorem State.unlockBy_lock (s : State) (m : Master) : (s.unlockBy m).lock = if s.lock = some m then none else s.lock :=
  by unfold State.unlockBy; split <;> rfl
@[simp] theorem State.unlockBy_bus (s : State) (m : Master) : (s.unlockBy m).bus = s.bus :=
  by unfold State.unlockBy; split <;> rfl
@[simp] theorem State.unlockBy_mem (s : State) (m : Master) : (s.unlockBy m).mem = s.mem :=
  by unfold State.unlockBy; split <;> rfl
@[simp] theorem State.unlockBy_queue (s : State) (m : Master) : (s.unlockBy m).queue = s.queue :=
  by unfold State.unlockBy; split <;> rfl
@[simp] theorem State.unlockBy_cfg (s : State) (m : Master) : (s.unlockBy m).cfg = s.cfg :=
  by unfold State.unlockBy; split <;> rfl
@[simp] theorem State.unlockBy_inputs (s : State) (m : Master) : (s.unlockBy m).inputs = s.inputs :=
  by unfold State.unlockBy; split <;> rfl
@[simp] theorem State.unlockBy_reply (s : State) (m : Master) : (s.unlockBy m).reply = s.reply :=
  by unfold State.unlockBy; split <;> rfl
@[simp] theorem State.unlockBy_devices (s : State) (m : Master) : (s.unlockBy m).devices = s.devices :=
  by unfold State.unlockBy; split <;> rfl
@[simp] theorem State.unlockBy_freeRun (s : State) (m : Master) : (s.unlockBy m).freeRun = s.freeRun :=
  by unfold State.unlockBy; split <;> rfl
@[simp] theorem State.unlockBy_turn (s : State) (m : Master) : (s.unlockBy m).turn = s.turn :=
  by unfold State.unlockBy; split <;> rfl

@[simp] theorem State.clearRequest_a (s : State) (k : Source) : (s.clearRequest k).a = s.a := rfl
@[simp] theorem State.clearRequest_f (s : State) (k : Source) : (s.clearRequest k).f = s.f := rfl
@[simp] theorem State.clearRequest_b (s : State) (k : Source) : (s.clearRequest k).b = s.b := rfl
@[simp] theorem State.clearRequest_c (s : State) (k : Source) : (s.clearRequest k).c = s.c := rfl
@[simp] theorem State.clearRequest_d (s : State) (k : Source) : (s.clearRequest k).d = s.d := rfl
@[simp] theorem State.clearRequest_e (s : State) (k : Source) : (s.clearRequest k).e = s.e := rfl
@[simp] theorem State.clearRequest_h (s : State) (k : Source) : (s.clearRequest k).h = s.h := rfl
@[simp] theorem State.clearRequest_l (s : State) (k : Source) : (s.clearRequest k).l = s.l := rfl
@[simp] theorem State.clearRequest_sp (s : State) (k : Source) : (s.clearRequest k).sp = s.sp := rfl
@[simp] theorem State.clearRequest_pc (s : State) (k : Source) : (s.clearRequest k).pc = s.pc := rfl
@[simp] theorem State.clearRequest_cyc (s : State) (k : Source) : (s.clearRequest k).cyc = s.cyc :=
  rfl
@[simp] theorem State.clearRequest_ime (s : State) (k : Source) : (s.clearRequest k).ime = s.ime :=
  rfl
@[simp] theorem State.clearRequest_ie (s : State) (k : Source) : (s.clearRequest k).ie = s.ie := rfl
@[simp] theorem State.clearRequest_ifl (s : State) (k : Source) : (s.clearRequest k).ifl = s.ifl &&& ~~~k.mask :=
  rfl
@[simp] theorem State.clearRequest_halted (s : State) (k : Source) : (s.clearRequest k).halted = s.halted :=
  rfl
@[simp] theorem State.clearRequest_stopped (s : State) (k : Source) : (s.clearRequest k).stopped = s.stopped :=
  rfl
@[simp] theorem State.clearRequest_fault (s : State) (k : Source) : (s.clearRequest k).fault = s.fault :=
  rfl
@[simp] theorem State.clearRequest_lock (s : State) (k : Source) : (s.clearRequest k).lock = s.lock :=
  rfl
@[simp] theorem State.clearRequest_bus (s : State) (k : Source) : (s.clearRequest k).bus = s.bus :=
  rfl
@[simp] theorem State.clearRequest_mem (s : State) (k : Source) : (s.clearRequest k).mem = s.mem :=
  rfl
@[simp] theorem State.clearRequest_queue (s : State) (k : Source) : (s.clearRequest k).queue = s.queue :=
  rfl
@[simp] theorem State.clearRequest_cfg (s : State) (k : Source) : (s.clearRequest k).cfg = s.cfg :=
  rfl
@[simp] theorem State.clearRequest_inputs (s : State) (k : Source) : (s.clearRequest k).inputs = s.inputs :=
  rfl
@[simp] theorem State.clearRequest_reply (s : State) (k : Source) : (s.clearRequest k).reply = s.reply :=
  rfl
@[simp] theorem State.clearRequest_devices (s : State) (k : Source) : (s.clearRequest k).devices = s.devices :=
  rfl
@[simp] theorem State.clearRequest_freeRun (s : State) (k : Source) : (s.clearRequest k).freeRun = s.freeRun :=
  rfl
@[simp] theorem State.clearRequest_turn (s : State) (k : Source) : (s.clearRequest k).turn = s.turn :=
  rfl

@[simp] theorem State.setFlag_a (s : State) (k : Nat) : (s.setFlag k).a = s.a :=
  by unfold State.setFlag; split <;> rfl
@[simp] theorem State.setFlag_f (s : State) (k : Nat) : (s.setFlag k).f = s.f :=
  by unfold State.setFlag; split <;> rfl
@[simp] theorem State.setFlag_b (s : State) (k : Nat) : (s.setFlag k).b = s.b :=
  by unfold State.setFlag; split <;> rfl
@[simp] theorem State.setFlag_c (s : State) (k : Nat) : (s.setFlag k).c = s.c :=
  by unfold State.setFlag; split <;> rfl
@[simp] theorem State.setFlag_d (s : State) (k : Nat) : (s.setFlag k).d = s.d :=
  by unfold State.setFlag; split <;> rfl
@[simp] theorem State.setFlag_e (s : State) (k : Nat) : (s.setFlag k).e = s.e :=
  by unfold State.setFlag; split <;> rfl
@[simp] theorem State.setFlag_h (s : State) (k : Nat) : (s.setFlag k).h = s.h :=
  by unfold State.setFlag; split <;> rfl
@[simp] theorem State.setFlag_l (s : State) (k : Nat) : (s.setFlag k).l = s.l :=
  by unfold State.setFlag; split <;> rfl
@[simp] theorem State.setFlag_sp (s : State) (k : Nat) : (s.setFlag k).sp = s.sp :=
  by unfold State.setFlag; split <;> rfl
@[simp] theorem State.setFlag_pc (s : State) (k : Nat) : (s.setFlag k).pc = s.pc :=
  by unfold State.setFlag; split <;> rfl
@[simp] theorem State.setFlag_cyc (s : State) (k : Nat) : (s.setFlag k).cyc = s.cyc :=
  by unfold State.setFlag; split <;> rfl
@[simp] theorem State.setFlag_ime (s : State) (k : Nat) : (s.setFlag k).ime = s.ime :=
  by unfold State.setFlag; split <;> rfl
@[simp] theorem State.setFlag_ie (s : State) (k : Nat) : (s.setFlag k).ie = s.ie :=
  by unfold State.setFlag; split <;> rfl
@[simp] theorem State.setFlag_halted (s : State) (k : Nat) : (s.setFlag k).halted = s.halted :=
  by unfold State.setFlag; split <;> rfl
@[simp] theorem State.setFlag_stopped (s : State) (k : Nat) : (s.setFlag k).stopped = s.stopped :=
  by unfold State.setFlag; split <;> rfl
@[simp] theorem State.setFlag_fault (s : State) (k : Nat) : (s.setFlag k).fault = s.fault :=
  by unfold State.setFlag; split <;> rfl
@[simp] theorem State.setFlag_lock (s : State) (k : Nat) : (s.setFlag k).lock = s.lock :=
  by unfold State.setFlag; split <;> rfl
@[simp] theorem State.setFlag_bus (s : State) (k : Nat) : (s.setFlag k).bus = s.bus :=
  by unfold State.setFlag; split <;> rfl
@[simp] theorem State.setFlag_mem (s : State) (k : Nat) : (s.setFlag k).mem = s.mem :=
  by unfold State.setFlag; split <;> rfl
@[simp] theorem State.setFlag_queue (s : State) (k : Nat) : (s.setFlag k).queue = s.queue :=
  by unfold State.setFlag; split <;> rfl
@[simp] theorem State.setFlag_cfg (s : State) (k : Nat) : (s.setFlag k).cfg = s.cfg :=
  by unfold State.setFlag; split <;> rfl
@[simp] theorem State.setFlag_inputs (s : State) (k : Nat) : (s.setFlag k).inputs = s.inputs :=
  by unfold State.setFlag; split <;> rfl
@[simp] theorem State.setFlag_reply (s : State) (k : Nat) : (s.setFlag k).reply = s.reply :=
  by unfold State.setFlag; split <;> rfl
@[simp] theorem State.setFlag_devices (s : State) (k : Nat) : (s.setFlag k).devices = s.devices :=
  by unfold State.setFlag; split <;> rfl
@[simp] theorem State.setFlag_freeRun (s : State) (k : Nat) : (s.setFlag k).freeRun = s.freeRun :=
  by unfold State.setFlag; split <;> rfl
@[simp] theorem State.setFlag_turn (s : State) (k : Nat) : (s.setFlag k).turn = s.turn :=
  by unfold State.setFlag; split <;> rfl

@[simp] theorem State.clearFlag_a (s : State) (k : Nat) : (s.clearFlag k).a = s.a :=
  by unfold State.clearFlag; split <;> rfl
@[simp] theorem State.clearFlag_f (s : State) (k : Nat) : (s.clearFlag k).f = s.f :=
  by unfold State.clearFlag; split <;> rfl
@[simp] theorem State.clearFlag_b (s : State) (k : Nat) : (s.clearFlag k).b = s.b :=
  by unfold State.clearFlag; split <;> rfl
@[simp] theorem State.clearFlag_c (s : State) (k : Nat) : (s.clearFlag k).c = s.c :=
  by unfold State.clearFlag; split <;> rfl
@[simp] theorem State.clearFlag_d (s : State) (k : Nat) : (s.clearFlag k).d = s.d :=
  by unfold State.clearFlag; split <;> rfl
@[simp] theorem State.clearFlag_e (s : State) (k : Nat) : (s.clearFlag k).e = s.e :=
  by unfold State.clearFlag; split <;> rfl
@[simp] theorem State.clearFlag_h (s : State) (k : Nat) : (s.clearFlag k).h = s.h :=
  by unfold State.clearFlag; split <;> rfl
@[simp] theorem State.clearFlag_l (s : State) (k : Nat) : (s.clearFlag k).l = s.l :=
  by unfold State.clearFlag; split <;> rfl
@[simp] theorem State.clearFlag_sp (s : State) (k : Nat) : (s.clearFlag k).sp = s.sp :=
  by unfold State.clearFlag; split <;> rfl
@[simp] theorem State.clearFlag_pc (s : State) (k : Nat) : (s.clearFlag k).pc = s.pc :=
  by unfold State.clearFlag; split <;> rfl
@[simp] theorem State.clearFlag_cyc (s : State) (k : Nat) : (s.clearFlag k).cyc = s.cyc :=
  by unfold State.clearFlag; split <;> rfl
@[simp] theorem State.clearFlag_ime (s : State) (k : Nat) : (s.clearFlag k).ime = s.ime :=
  by unfold State.clearFlag; split <;> rfl
@[simp] theorem State.clearFlag_ie (s : State) (k : Nat) : (s.clearFlag k).ie = s.ie :=
  by unfold State.clearFlag; split <;> rfl
@[simp] theorem State.clearFlag_halted (s : State) (k : Nat) : (s.clearFlag k).halted = s.halted :=
  by unfold State.clearFlag; split <;> rfl
@[simp] theorem State.clearFlag_stopped (s : State) (k : Nat) : (s.clearFlag k).stopped = s.stopped :=
  by unfold State.clearFlag; split <;> rfl
@[simp] theorem State.clearFlag_fault (s : State) (k : Nat) : (s.clearFlag k).fault = s.fault :=
  by unfold State.clearFlag; split <;> rfl
@[simp] theorem State.clearFlag_lock (s : State) (k : Nat) : (s.clearFlag k).lock = s.lock :=
  by unfold State.clearFlag; split <;> rfl
@[simp] theorem State.clearFlag_bus (s : State) (k : Nat) : (s.clearFlag k).bus = s.bus :=
  by unfold State.clearFlag; split <;> rfl
@[simp] theorem State.clearFlag_mem (s : State) (k : Nat) : (s.clearFlag k).mem = s.mem :=
  by unfold State.clearFlag; split <;> rfl
@[simp] theorem State.clearFlag_queue (s : State) (k : Nat) : (s.clearFlag k).queue = s.queue :=
  by unfold State.clearFlag; split <;> rfl
@[simp] theorem State.clearFlag_cfg (s : State) (k : Nat) : (s.clearFlag k).cfg = s.cfg :=
  by unfold State.clearFlag; split <;> rfl
@[simp] theorem State.clearFlag_inputs (s : State) (k : Nat) : (s.clearFlag k).inputs = s.inputs :=
  by unfold State.clearFlag; split <;> rfl
@[simp] theorem State.clearFlag_reply (s : State) (k : Nat) : (s.clearFlag k).reply = s.reply :=
  by unfold State.clearFlag; split <;> rfl
@[simp] theorem State.clearFlag_devices (s : State) (k : Nat) : (s.clearFlag k).devices = s.devices :=
  by unfold State.clearFlag; split <;> rfl
@[simp] theorem State.clearFlag_freeRun (s : State) (k : Nat) : (s.clearFlag k).freeRun = s.freeRun :=
  by unfold State.clearFlag; split <;> rfl
@[simp] theorem State.clearFlag_turn (s : State) (k : Nat) : (s.clearFlag k).turn = s.turn :=
  by unfold State.clearFlag; split <;> rfl

/-! ## Device states -/

@[simp] theorem State.setDevice_a (s : State) (o : Owner) (q : Nat) : (s.setDevice o q).a = s.a :=
  by unfold State.setDevice; split <;> rfl
@[simp] theorem State.setDevice_f (s : State) (o : Owner) (q : Nat) : (s.setDevice o q).f = s.f :=
  by unfold State.setDevice; split <;> rfl
@[simp] theorem State.setDevice_b (s : State) (o : Owner) (q : Nat) : (s.setDevice o q).b = s.b :=
  by unfold State.setDevice; split <;> rfl
@[simp] theorem State.setDevice_c (s : State) (o : Owner) (q : Nat) : (s.setDevice o q).c = s.c :=
  by unfold State.setDevice; split <;> rfl
@[simp] theorem State.setDevice_d (s : State) (o : Owner) (q : Nat) : (s.setDevice o q).d = s.d :=
  by unfold State.setDevice; split <;> rfl
@[simp] theorem State.setDevice_e (s : State) (o : Owner) (q : Nat) : (s.setDevice o q).e = s.e :=
  by unfold State.setDevice; split <;> rfl
@[simp] theorem State.setDevice_h (s : State) (o : Owner) (q : Nat) : (s.setDevice o q).h = s.h :=
  by unfold State.setDevice; split <;> rfl
@[simp] theorem State.setDevice_l (s : State) (o : Owner) (q : Nat) : (s.setDevice o q).l = s.l :=
  by unfold State.setDevice; split <;> rfl
@[simp] theorem State.setDevice_sp (s : State) (o : Owner) (q : Nat) : (s.setDevice o q).sp = s.sp :=
  by unfold State.setDevice; split <;> rfl
@[simp] theorem State.setDevice_pc (s : State) (o : Owner) (q : Nat) : (s.setDevice o q).pc = s.pc :=
  by unfold State.setDevice; split <;> rfl
@[simp] theorem State.setDevice_cyc (s : State) (o : Owner) (q : Nat) : (s.setDevice o q).cyc = s.cyc :=
  by unfold State.setDevice; split <;> rfl
@[simp] theorem State.setDevice_ime (s : State) (o : Owner) (q : Nat) : (s.setDevice o q).ime = s.ime :=
  by unfold State.setDevice; split <;> rfl
@[simp] theorem State.setDevice_ie (s : State) (o : Owner) (q : Nat) : (s.setDevice o q).ie = s.ie :=
  by unfold State.setDevice; split <;> rfl
@[simp] theorem State.setDevice_ifl (s : State) (o : Owner) (q : Nat) : (s.setDevice o q).ifl = s.ifl :=
  by unfold State.setDevice; split <;> rfl
@[simp] theorem State.setDevice_halted (s : State) (o : Owner) (q : Nat) : (s.setDevice o q).halted = s.halted :=
  by unfold State.setDevice; split <;> rfl
@[simp] theorem State.setDevice_stopped (s : State) (o : Owner) (q : Nat) : (s.setDevice o q).stopped = s.stopped :=
  by unfold State.setDevice; split <;> rfl
@[simp] theorem State.setDevice_fault (s : State) (o : Owner) (q : Nat) : (s.setDevice o q).fault = s.fault :=
  by unfold State.setDevice; split <;> rfl
@[simp] theorem State.setDevice_lock (s : State) (o : Owner) (q : Nat) : (s.setDevice o q).lock = s.lock :=
  by unfold State.setDevice; split <;> rfl
@[simp] theorem State.setDevice_bus (s : State) (o : Owner) (q : Nat) : (s.setDevice o q).bus = s.bus :=
  by unfold State.setDevice; split <;> rfl
@[simp] theorem State.setDevice_mem (s : State) (o : Owner) (q : Nat) : (s.setDevice o q).mem = s.mem :=
  by unfold State.setDevice; split <;> rfl
@[simp] theorem State.setDevice_queue (s : State) (o : Owner) (q : Nat) : (s.setDevice o q).queue = s.queue :=
  by unfold State.setDevice; split <;> rfl
@[simp] theorem State.setDevice_cfg (s : State) (o : Owner) (q : Nat) : (s.setDevice o q).cfg = s.cfg :=
  by unfold State.setDevice; split <;> rfl
@[simp] theorem State.setDevice_inputs (s : State) (o : Owner) (q : Nat) : (s.setDevice o q).inputs = s.inputs :=
  by unfold State.setDevice; split <;> rfl
@[simp] theorem State.setDevice_freeRun (s : State) (o : Owner) (q : Nat) : (s.setDevice o q).freeRun = s.freeRun :=
  by unfold State.setDevice; split <;> rfl
@[simp] theorem State.setDevice_turn (s : State) (o : Owner) (q : Nat) : (s.setDevice o q).turn = s.turn :=
  by unfold State.setDevice; split <;> rfl
@[simp] theorem State.setDevice_reply (s : State) (o : Owner) (q : Nat) : (s.setDevice o q).reply = s.reply :=
  by unfold State.setDevice; split <;> rfl

/-! ## Places -/

@[simp] theorem State.put_a (s : State) (p : Place) (v : Byte) : (s.put p v).a = s.a :=
  by cases p <;> simp [State.put]
@[simp] theorem State.put_f (s : State) (p : Place) (v : Byte) : (s.put p v).f = s.f :=
  by cases p <;> simp [State.put]
@[simp] theorem State.put_b (s : State) (p : Place) (v : Byte) : (s.put p v).b = s.b :=
  by cases p <;> simp [State.put]
@[simp] theorem State.put_c (s : State) (p : Place) (v : Byte) : (s.put p v).c = s.c :=
  by cases p <;> simp [State.put]
@[simp] theorem State.put_d (s : State) (p : Place) (v : Byte) : (s.put p v).d = s.d :=
  by cases p <;> simp [State.put]
@[simp] theorem State.put_e (s : State) (p : Place) (v : Byte) : (s.put p v).e = s.e :=
  by cases p <;> simp [State.put]
@[simp] theorem State.put_h (s : State) (p : Place) (v : Byte) : (s.put p v).h = s.h :=
  by cases p <;> simp [State.put]
@[simp] theorem State.put_l (s : State) (p : Place) (v : Byte) : (s.put p v).l = s.l :=
  by cases p <;> simp [State.put]
@[simp] theorem State.put_sp (s : State) (p : Place) (v : Byte) : (s.put p v).sp = s.sp :=
  by cases p <;> simp [State.put]
@[simp] theorem State.put_pc (s : State) (p : Place) (v : Byte) : (s.put p v).pc = s.pc :=
  by cases p <;> simp [State.put]
@[simp] theorem State.put_cyc (s : State) (p : Place) (v : Byte) : (s.put p v).cyc = s.cyc :=
  by cases p <;> simp [State.put]
@[simp] theorem State.put_ime (s : State) (p : Place) (v : Byte) : (s.put p v).ime = s.ime :=
  by cases p <;> simp [State.put]
@[simp] theorem State.put_halted (s : State) (p : Place) (v : Byte) : (s.put p v).halted = s.halted :=
  by cases p <;> simp [State.put]
@[simp] theorem State.put_stopped (s : State) (p : Place) (v : Byte) : (s.put p v).stopped = s.stopped :=
  by cases p <;> simp [State.put]
@[simp] theorem State.put_fault (s : State) (p : Place) (v : Byte) : (s.put p v).fault = s.fault :=
  by cases p <;> simp [State.put]
@[simp] theorem State.put_lock (s : State) (p : Place) (v : Byte) : (s.put p v).lock = s.lock :=
  by cases p <;> simp [State.put]
@[simp] theorem State.put_bus (s : State) (p : Place) (v : Byte) : (s.put p v).bus = s.bus :=
  by cases p <;> simp [State.put]
@[simp] theorem State.put_queue (s : State) (p : Place) (v : Byte) : (s.put p v).queue = s.queue :=
  by cases p <;> simp [State.put]
@[simp] theorem State.put_cfg (s : State) (p : Place) (v : Byte) : (s.put p v).cfg = s.cfg :=
  by cases p <;> simp [State.put]
@[simp] theorem State.put_inputs (s : State) (p : Place) (v : Byte) : (s.put p v).inputs = s.inputs :=
  by cases p <;> simp [State.put]
@[simp] theorem State.put_reply (s : State) (p : Place) (v : Byte) : (s.put p v).reply = s.reply :=
  by cases p <;> simp [State.put]
@[simp] theorem State.put_freeRun (s : State) (p : Place) (v : Byte) : (s.put p v).freeRun = s.freeRun :=
  by cases p <;> simp [State.put]
@[simp] theorem State.put_turn (s : State) (p : Place) (v : Byte) : (s.put p v).turn = s.turn :=
  by cases p <;> simp [State.put]

end Sys2Proof.Machine
end

