-- ==== Sys2Proof/Laws/Ops.lean ====
section
/-! SUPPORT. What the shared operations can do, said once: the ways a bus access ends, what a fetch, a
push and a pop do, that places depend on the connection list alone, and that storage stays canonical. -/

namespace Sys2Proof.Machine

/-! ## Results -/

@[simp] theorem Res.bind_ok {α β : Type} (v : α) (s : State) (k : α → State → Res β) :
    (Res.ok v s).bind k = k v s := rfl

@[simp] theorem Res.bind_raised {α β : Type} (s : State) (k : α → State → Res β) :
    (Res.raised s : Res α).bind k = .raised s := rfl

@[simp] theorem Res.finish_ok (s : State) : (Res.ok () s).finish = .next s := rfl

@[simp] theorem Res.finish_raised (s : State) : (Res.raised s : Res Unit).finish = .next s := rfl

/-- A completed or raised operation always ends the step in a next state. -/
theorem Res.finish_next (x : Res Unit) : ∃ t, x.finish = .next t := by
  cases x <;> exact ⟨_, rfl⟩

@[simp] theorem done_eq (n : Nat) (s : State) : done n s = .ok () (s.tick n) := rfl

/-! ## Places -/

/-- Where an address points depends on the connection list alone (R67). -/
theorem State.placeOf_congr {s t : State} (h : t.bus = s.bus) (a : Word) :
    t.placeOf a = s.placeOf a := by
  unfold State.placeOf; rw [h]

/-- Whether a read is quiet depends on the connection list and the device states. -/
theorem State.quietAt_congr {s t : State} (h : t.bus = s.bus) (hd : t.devices = s.devices) (a : Word) :
    t.quietAt a = s.quietAt a := by
  unfold State.quietAt Connection.quiet State.device; rw [h, hd]

/-- An owner's number tells it from every other. -/
theorem Owner.code_inj {o o' : Owner} (h : o.code = o'.code) : o = o' := by
  cases o <;> cases o' <;> simp_all [Owner.code]

/-- Setting a device's state leaves every other device's. -/
theorem State.device_setDevice_other (s : State) {o o' : Owner} (q : Nat) (h : o' ≠ o) :
    (s.setDevice o q).device o' = s.device o' := by
  unfold State.setDevice
  split
  · rfl
  · exact DeviceStates.read_write_other _ _ fun hc => h (Owner.code_inj hc)

/-- A device is in the state it was set to, the list being canonical. -/
theorem State.device_setDevice_same (s : State) (o : Owner) (q : Nat) (h : s.devices.wf = true) :
    (s.setDevice o q).device o = q := by
  unfold State.setDevice
  split
  · assumption
  · exact DeviceStates.read_write_same _ h

/-- Setting a device's state keeps the canonical form. -/
theorem State.setDevice_wf (s : State) (o : Owner) (q : Nat) (h : s.devices.wf = true) :
    (s.setDevice o q).devices.wf = true := by
  unfold State.setDevice
  split
  · exact h
  · exact DeviceStates.write_wf _ _ h

/-- Setting the state a device is in changes nothing. -/
theorem State.setDevice_self (s : State) (o : Owner) : s.setDevice o (s.device o) = s := by
  simp [State.setDevice]

theorem State.setDevice_eq (s : State) (o : Owner) (q : Nat) :
    s.setDevice o q = { s with devices := (s.setDevice o q).devices } := by
  unfold State.setDevice
  split <;> rfl

theorem State.at_put_same (s : State) (p : Place) (v : Byte) (h : s.mem.wf = true)
    (hd : s.devices.wf = true) : (s.put p v).at p = v := by
  cases p <;> simp [State.at, State.put, Memory.read_write_same, State.device_setDevice_same, h, hd]

/-- A byte place holds the byte as a number. -/
theorem State.content_eq_at (s : State) {p : Place} (h : ∀ o, p ≠ .device o) :
    s.content p = (s.at p).toNat := by
  cases p <;> first | rfl | exact absurd rfl (h _)

/-! ## What one access may change -/

/-- `t` is `s` but for what the place holds. -/
inductive Touches (s : State) : Place → State → Prop where
  | same (p : Place) : Touches s p s
  | put (p : Place) (v : Byte) : Touches s p (s.put p v)
  | device (o : Owner) (q : Nat) : Touches s (.device o) (s.setDevice o q)

/-- Every other place holds what it held. -/
theorem Touches.content_other {s t : State} {p q : Place} (h : Touches s p t) (hq : q ≠ p) :
    t.content q = s.content q := by
  have hd : ∀ (o o' : Owner) (n : Nat), Place.device o' ≠ .device o →
      (s.setDevice o n).device o' = s.device o' :=
    fun o o' n hne => State.device_setDevice_other s n fun he => hne (by rw [he])
  cases h with
  | same => rfl
  | put p v =>
    cases p <;> cases q <;>
      simp_all [State.content, State.put, State.device, Memory.read_write_other]
  | device o n =>
    cases q with
    | device o' => exact hd o o' n hq
    | cell k => simp [State.content]
    | ifReg => simp [State.content]
    | ieReg => simp [State.content]

/-- Only storage, the interrupt registers and the device states can differ. -/
theorem Touches.eq {s t : State} {p : Place} (h : Touches s p t) :
    t = { s with mem := t.mem, ie := t.ie, ifl := t.ifl, devices := t.devices } := by
  cases h with
  | same => rfl
  | put p v =>
    cases p with
    | device o => simp only [State.put]; rw [State.setDevice_eq]
    | cell k => rfl
    | ifReg => rfl
    | ieReg => rfl
  | device o q => rw [State.setDevice_eq]

/-- Both canonical forms are kept. -/
theorem Touches.wf {s t : State} {p : Place} (h : Touches s p t) (hm : s.mem.wf = true)
    (hd : s.devices.wf = true) : t.mem.wf = true ∧ t.devices.wf = true := by
  cases h with
  | same => exact ⟨hm, hd⟩
  | put p v =>
    cases p with
    | cell k => exact ⟨Memory.write_wf _ _ hm, hd⟩
    | ifReg => exact ⟨hm, hd⟩
    | ieReg => exact ⟨hm, hd⟩
    | device o => exact ⟨by simpa [State.put] using hm, State.setDevice_wf _ _ _ hd⟩
  | device o q => exact ⟨by simpa using hm, State.setDevice_wf _ _ _ hd⟩

/-! ## Bus accesses -/

theorem busRead_unmapped {s : State} {a : Word} (h : decodeAddr s.bus a = none) :
    busRead a s = .raised { s with fault := some (.unmappedAddress a .read) } := by
  simp [busRead, h, raise]

theorem busWrite_unmapped {s : State} {a : Word} (v : Byte) (h : decodeAddr s.bus a = none) :
    busWrite a v s = .raised { s with fault := some (.unmappedAddress a .write) } := by
  simp [busWrite, h, raise]

/-- Where a connection is decoded, its place is the address's. -/
theorem State.placeOf_of_decode {s : State} {a : Word} {c : Connection}
    (h : decodeAddr s.bus a = some c) : s.placeOf a = (c.place a).toOption := by
  unfold State.placeOf; rw [h]

/-- A platform's own entry point touches its owner's device state and answers or raises. -/
theorem Connection.run_cases (c : Connection) (e : EntryPoint) (a : Word) (v : Byte) (s : State) :
    (∃ w, c.run e a v s = .ok w (s.setDevice c.owner (e.after (s.device c.owner) a v))) ∨
    c.run e a v s = .raised { s.setDevice c.owner (e.after (s.device c.owner) a v) with
      fault := some (.deviceFailure a) } := by
  simp only [Connection.run, raise]
  cases e.failing (s.device c.owner) a v
  · exact .inl ⟨_, rfl⟩
  · exact .inr rfl

theorem Connection.read_program {c : Connection} {p : DeviceProgram} (h : c.port = .program p) (a : Word)
    (s : State) : c.read a s = c.run p.read a 0x00 s := by
  simp only [Connection.read, h]

theorem Connection.write_program {c : Connection} {p : DeviceProgram} (h : c.port = .program p) (a : Word)
    (v : Byte) (s : State) : c.write a v s = (c.run p.write a v s).bind fun _ s => .ok () s := by
  simp only [Connection.write, h]

theorem Connection.place_program {c : Connection} {p : DeviceProgram} (h : c.port = .program p) (a : Word) :
    c.place a = .ok (.device c.owner) := by
  simp only [Connection.place, h]

/-- The other ports raise without naming a place, or act on the byte at their place. -/
theorem Connection.read_error {c : Connection} (h : ∀ p, c.port ≠ .program p) {a : Word} {k : Fault}
    (hp : c.place a = .error k) (s : State) : c.read a s = raise k s := by
  unfold Connection.read
  split
  · rename_i p hc; exact absurd hc (h p)
  all_goals simp only [hp]

theorem Connection.read_ok {c : Connection} (h : ∀ p, c.port ≠ .program p) {a : Word} {p : Place}
    (hp : c.place a = .ok p) (s : State) :
    c.read a s = .ok (s.at p) (if c.port = .clearOnRead then s.put p 0x00 else s) := by
  unfold Connection.read
  split
  · rename_i p hc; exact absurd hc (h p)
  all_goals simp only [hp]

theorem Connection.write_error {c : Connection} (h : ∀ p, c.port ≠ .program p) {a : Word} {k : Fault}
    (hp : c.place a = .error k) (v : Byte) (s : State) : c.write a v s = raise k s := by
  unfold Connection.write
  split
  · rename_i p hc; exact absurd hc (h p)
  all_goals simp only [hp]

theorem Connection.write_ok {c : Connection} (h : ∀ p, c.port ≠ .program p) {a : Word} {p : Place}
    (hp : c.place a = .ok p) (v : Byte) (s : State) :
    c.write a v s = .ok () (if c.port = .rom then s else s.put p v) := by
  unfold Connection.write
  split
  · rename_i p hc; exact absurd hc (h p)
  all_goals simp only [hp]

/-- Only a platform's own entry points have a device's state as their place. -/
theorem Connection.place_byte {c : Connection} (h : ∀ p, c.port ≠ .program p) {a : Word} {p : Place}
    (hp : c.place a = .ok p) (o : Owner) : p ≠ .device o := by
  rintro rfl
  unfold Connection.place at hp
  split at hp
  all_goals first | (rename_i p hc; exact h p hc) | (split at hp <;> cases hp) | cases hp

/-- The ways a bus read ends: a fault that changes the latch alone; or the place touched, not at all if the
read is quiet, and a byte answered or the device's failure raised. -/
theorem busRead_cases (a : Word) (s : State) :
    (∃ k, busRead a s = .raised { s with fault := some k }) ∨
    ∃ p t, s.placeOf a = some p ∧ Touches s p t ∧ (s.quietAt a = true → t = s) ∧
      ((∃ v, busRead a s = .ok v t) ∨
        busRead a s = .raised { t with fault := some (.deviceFailure a) }) := by
  cases hd : decodeAddr s.bus a with
  | none => exact .inl ⟨_, busRead_unmapped hd⟩
  | some c =>
    have hr : busRead a s = c.read a s := by simp [busRead, hd]
    have hq : s.quietAt a = c.quiet a s := by simp [State.quietAt, hd]
    rw [hr, hq, State.placeOf_of_decode hd]
    by_cases hc : ∃ p, c.port = .program p
    · obtain ⟨p, hc⟩ := hc
      rw [Connection.read_program hc, Connection.place_program hc]
      refine .inr ⟨_, _, rfl, .device c.owner _, fun h => ?_, c.run_cases p.read a 0x00 s⟩
      simp only [Connection.quiet, hc, decide_eq_true_eq] at h
      rw [h, State.setDevice_self]
    · have hc' : ∀ p, c.port ≠ .program p := fun p h => hc ⟨p, h⟩
      cases hp : c.place a with
      | error k => exact .inl ⟨k, Connection.read_error hc' hp s⟩
      | ok p =>
        rw [Connection.read_ok hc' hp]
        by_cases hcl : c.port = .clearOnRead
        · exact .inr ⟨p, _, rfl, .put p 0x00, by simp [Connection.quiet, hcl], .inl ⟨_, by rw [if_pos hcl]⟩⟩
        · exact .inr ⟨p, s, rfl, .same p, fun _ => rfl, .inl ⟨_, by rw [if_neg hcl]⟩⟩

/-- The ways a bus write ends: a fault that changes the latch alone; or the place touched, and the write
done or the device's failure raised. -/
theorem busWrite_cases (a : Word) (v : Byte) (s : State) :
    (∃ k, busWrite a v s = .raised { s with fault := some k }) ∨
    ∃ p t, s.placeOf a = some p ∧ Touches s p t ∧
      (busWrite a v s = .ok () t ∨
        busWrite a v s = .raised { t with fault := some (.deviceFailure a) }) := by
  cases hd : decodeAddr s.bus a with
  | none => exact .inl ⟨_, busWrite_unmapped v hd⟩
  | some c =>
    have hr : busWrite a v s = c.write a v s := by simp [busWrite, hd]
    rw [hr, State.placeOf_of_decode hd]
    by_cases hc : ∃ p, c.port = .program p
    · obtain ⟨p, hc⟩ := hc
      rw [Connection.write_program hc, Connection.place_program hc]
      refine .inr ⟨_, _, rfl, .device c.owner (p.write.after (s.device c.owner) a v), ?_⟩
      obtain ⟨w, h⟩ | h := c.run_cases p.write a v s
      · exact .inl (by rw [h]; rfl)
      · exact .inr (by rw [h]; rfl)
    · have hc' : ∀ p, c.port ≠ .program p := fun p h => hc ⟨p, h⟩
      cases hp : c.place a with
      | error k => exact .inl ⟨k, Connection.write_error hc' hp v s⟩
      | ok p =>
        rw [Connection.write_ok hc' hp]
        by_cases hro : c.port = .rom
        · exact .inr ⟨p, s, rfl, .same p, .inl (by rw [if_pos hro])⟩
        · exact .inr ⟨p, _, rfl, .put p v, .inl (by rw [if_neg hro])⟩

/-- A read the frame statements call quiet answers the byte and changes nothing. -/
theorem busRead_of_reads {s : State} {a : Word} {v : Byte} (h : s.reads a v) :
    busRead a s = .ok v s := by
  obtain ⟨hp, hq⟩ := h
  unfold State.peek at hp
  obtain ⟨k, hk⟩ | ⟨p, t, -, -, ht, ⟨w, hr⟩ | hr⟩ := busRead_cases a s
  · simp [hk] at hp
  · rw [hr] at hp ⊢
    simp only [Option.some.injEq] at hp
    rw [hp, ht hq]
  · simp [hr] at hp

/-- What an address reads as depends on the connection list and on what its place holds. -/
theorem State.peek_congr {s t : State} {a : Word} (hb : t.bus = s.bus)
    (h : ∀ p, s.placeOf a = some p → t.content p = s.content p) : t.peek a = s.peek a := by
  unfold State.peek busRead
  rw [hb]
  cases hd : decodeAddr s.bus a with
  | none => rfl
  | some c =>
    rw [State.placeOf_of_decode hd] at h
    simp only []
    by_cases hc : ∃ p, c.port = .program p
    · obtain ⟨p, hc⟩ := hc
      have he : t.device c.owner = s.device c.owner :=
        h (.device c.owner) (by rw [Connection.place_program hc]; rfl)
      rw [Connection.read_program hc, Connection.read_program hc]
      simp only [Connection.run, he, raise]
      cases p.read.failing (s.device c.owner) a 0x00 <;> rfl
    · have hc' : ∀ p, c.port ≠ .program p := fun p h => hc ⟨p, h⟩
      cases hp : c.place a with
      | error k => rw [Connection.read_error hc' hp, Connection.read_error hc' hp]; rfl
      | ok p =>
        have he := h p (by rw [hp]; rfl)
        rw [State.content_eq_at _ (Connection.place_byte hc' hp),
          State.content_eq_at _ (Connection.place_byte hc' hp)] at he
        rw [Connection.read_ok hc' hp, Connection.read_ok hc' hp]
        simp only [BitVec.eq_of_toNat_eq he]

/-- Which byte a quiet read gives depends on the bus, the contents and the device states alone. -/
theorem State.reads_congr {s t : State} {a : Word} {v : Byte} (hb : t.bus = s.bus)
    (hd : t.devices = s.devices) (hm : t.mem = s.mem) (hi : t.ifl = s.ifl) (he : t.ie = s.ie)
    (h : s.reads a v) : t.reads a v := by
  refine ⟨?_, (State.quietAt_congr hb hd a).trans h.2⟩
  rw [State.peek_congr hb fun p _ => ?_]
  · exact h.1
  · cases p <;> simp [State.content, State.device, hd, hm, hi, he]

/-- A fetch is a bus read at PC with PC moved past the byte if it succeeds (R101). -/
theorem fetch8_of_reads {s : State} {v : Byte} (h : s.reads s.pc v) :
    fetch8 s = .ok v { s with pc := s.pc + 1 } := by
  simp [fetch8, busRead_of_reads h]

/-! ## What every bus access leaves alone -/

/-- `t` is `s` but for storage, the interrupt registers, the device states and the fault latch. -/
def BusOnly (s t : State) : Prop :=
  t = { s with mem := t.mem, ie := t.ie, ifl := t.ifl, devices := t.devices, fault := t.fault }

theorem BusOnly.refl (s : State) : BusOnly s s := rfl

theorem BusOnly.trans {s t u : State} (h : BusOnly s t) (h' : BusOnly t u) : BusOnly s u := by
  unfold BusOnly at *; rw [h', h]

theorem Touches.busOnly {s t : State} {p : Place} (h : Touches s p t) (k : Option Fault) :
    BusOnly s { t with fault := k } := by
  unfold BusOnly; rw [h.eq]

theorem Touches.busOnly' {s t : State} {p : Place} (h : Touches s p t) : BusOnly s t := by
  unfold BusOnly; rw [h.eq]

/-- The state an operation ends in. -/
def Res.state {α : Type} : Res α → State
  | .ok _ s => s
  | .raised s => s

theorem busRead_busOnly (a : Word) (s : State) : BusOnly s (busRead a s).state := by
  obtain ⟨k, h⟩ | ⟨p, t, -, ht, -, ⟨v, h⟩ | h⟩ := busRead_cases a s <;> rw [h]
  · rfl
  · exact ht.busOnly'
  · exact ht.busOnly _

theorem busWrite_busOnly (a : Word) (v : Byte) (s : State) : BusOnly s (busWrite a v s).state := by
  obtain ⟨k, h⟩ | ⟨p, t, -, ht, h | h⟩ := busWrite_cases a v s <;> rw [h]
  · rfl
  · exact ht.busOnly'
  · exact ht.busOnly _

/-- A bus read keeps the canonical forms. -/
theorem busRead_canonical (a : Word) (s : State) (h : s.canonical) :
    (busRead a s).state.canonical := by
  obtain ⟨k, h'⟩ | ⟨p, t, -, ht, -, ⟨v, h'⟩ | h'⟩ := busRead_cases a s <;> rw [h']
  · exact h
  · exact ht.wf h.1 h.2
  · exact ht.wf h.1 h.2

/-- A bus write keeps the canonical forms. -/
theorem busWrite_canonical (a : Word) (v : Byte) (s : State) (h : s.canonical) :
    (busWrite a v s).state.canonical := by
  obtain ⟨k, h'⟩ | ⟨p, t, -, ht, h' | h'⟩ := busWrite_cases a v s <;> rw [h']
  · exact h
  · exact ht.wf h.1 h.2
  · exact ht.wf h.1 h.2

end Sys2Proof.Machine
end

