-- ==== Sys2Proof/Laws/Words.lean ====
section
/-! SUPPORT. The laws of the byte and word helpers: the halves of a word, a word from its halves, and the
addresses computed from them. -/

namespace Sys2Proof

@[simp] theorem lowByte_append (hi lo : Byte) : lowByte (hi ++ lo) = lo := by
  apply BitVec.eq_of_getLsbD_eq
  intro i h
  simp only [lowByte, BitVec.getLsbD_setWidth, BitVec.getLsbD_append]
  simp [h]

@[simp] theorem highByte_append (hi lo : Byte) : highByte (hi ++ lo) = hi := by
  apply BitVec.eq_of_getLsbD_eq
  intro i h
  simp only [highByte, BitVec.getLsbD_setWidth, BitVec.getLsbD_ushiftRight, BitVec.getLsbD_append]
  simp [h]

theorem wordOf_toNat (hi lo : Byte) : (wordOf hi lo).toNat = hi.toNat * 256 + lo.toNat := by
  have := lo.isLt
  simp only [wordOf, BitVec.toNat_append]
  rw [Nat.shiftLeft_eq, Nat.mul_comm, ← Nat.two_pow_add_eq_or_of_lt (by omega)]

theorem highByte_toNat (v : Word) : (highByte v).toNat = v.toNat / 256 := by
  have := v.isLt
  simp [highByte, Nat.shiftRight_eq_div_pow]
  omega

theorem lowByte_toNat (v : Word) : (lowByte v).toNat = v.toNat % 256 := by
  simp [lowByte]

/-- A word is its high byte and its low byte. -/
theorem wordOf_high_low (v : Word) : wordOf (highByte v) (lowByte v) = v := by
  apply BitVec.eq_of_toNat_eq
  rw [wordOf_toNat, highByte_toNat, lowByte_toNat]
  omega

theorem highByte_eq_extract (v : Word) : highByte v = v.extractLsb' 8 8 := by
  apply BitVec.eq_of_getLsbD_eq
  intro i h
  simp [highByte, h]

theorem lowByte_eq_extract (v : Word) : lowByte v = v.extractLsb' 0 8 := by
  apply BitVec.eq_of_getLsbD_eq
  intro i h
  simp [lowByte, h]

/-- The high-page address as a number (R103). -/
theorem Machine.highPage_eq (n : Byte) : highPage n = BitVec.ofNat 16 (0xFF00 + n.toNat) := by
  apply BitVec.eq_of_toNat_eq
  simp [highPage]

end Sys2Proof
end

