-- ==== Sys2Proof/Laws/Access.lean ====
section
/-! SUPPORT. How to establish the access statements `ReadsThen`, `WritesThen`, `PushesThen` and `PopsThen`: it is
enough to say what the outcome is when the access raises and when it completes. -/

namespace Sys2Proof.Machine

theorem BusOnly.of_read {s t : State} {a : Word} {v : Byte} (h : busRead a s = .ok v t) :
    BusOnly s t := by
  have := busRead_busOnly a s
  rwa [h] at this

theorem BusOnly.of_write {s t : State} {a : Word} {v : Byte} (h : busWrite a v s = .ok () t) :
    BusOnly s t := by
  have := busWrite_busOnly a v s
  rwa [h] at this

theorem BusOnly.a {s t : State} (h : BusOnly s t) : t.a = s.a := by rw [h]
theorem BusOnly.f {s t : State} (h : BusOnly s t) : t.f = s.f := by rw [h]
theorem BusOnly.sp {s t : State} (h : BusOnly s t) : t.sp = s.sp := by rw [h]
theorem BusOnly.pc {s t : State} (h : BusOnly s t) : t.pc = s.pc := by rw [h]
theorem BusOnly.hl {s t : State} (h : BusOnly s t) : t.hl = s.hl := by rw [h]; rfl
theorem BusOnly.bus {s t : State} (h : BusOnly s t) : t.bus = s.bus := by rw [h]
theorem BusOnly.lock {s t : State} (h : BusOnly s t) : t.lock = s.lock := by rw [h]
theorem BusOnly.cyc {s t : State} (h : BusOnly s t) : t.cyc = s.cyc := by rw [h]

theorem readsThen_of {s : State} {a : Word} {o : Out} {K : Byte → State → Prop}
    (hr : ∀ t, busRead a s = .raised t → o = .next t)
    (hk : ∀ v t, busRead a s = .ok v t → K v t) : ReadsThen s a o K :=
  ⟨fun h => hr _ (busRead_unmapped h), hr, hk⟩

theorem writesThen_of {s : State} {a : Word} {v : Byte} {o : Out} {K : State → Prop}
    (hr : ∀ t, busWrite a v s = .raised t → o = .next t)
    (hk : ∀ t, busWrite a v s = .ok () t → K t) : WritesThen s a v o K :=
  ⟨fun h => hr _ (busWrite_unmapped v h), hr, hk⟩

/-- An outcome that is a continuation `x` of `push16(v)`, where `x` ends a raised step; of the state after
a completed push, all but storage, the interrupt registers and the latch is `s` with SP two lower. -/
theorem pushesThen_of {s : State} {v : Word} {o : Out} {K : State → Prop} (x : Res Unit → Out)
    (ho : o = x (push16 v s)) (hr : ∀ t, x (.raised t) = .next t)
    (hk : ∀ t, BusOnly { s with sp := s.sp - 2 } t → o = x (.ok () t) → K t) :
    PushesThen s v o K := by
  subst ho
  refine writesThen_of ?_ ?_
  · intro t h
    rw [← highByte_eq_extract] at h
    simp only [push16, pushByte]
    rw [h, Res.bind_raised, hr]
  · intro t h
    have hsp : t.sp = s.sp - 1 := (BusOnly.of_write h).sp
    have hp : push16 v s = busWrite (s.sp - 2) (lowByte v) { t with sp := s.sp - 2 } := by
      rw [← highByte_eq_extract] at h
      simp only [push16, pushByte]
      rw [h, Res.bind_ok, hsp, show s.sp - 1 - 1 = s.sp - 2 by bv_omega]
    refine writesThen_of ?_ ?_
    · intro u h'
      rw [← lowByte_eq_extract] at h'
      rw [hp, h', hr]
    · intro u h'
      rw [← lowByte_eq_extract] at h'
      have ht : BusOnly { s with sp := s.sp - 2 } { t with sp := s.sp - 2 } := by
        have h1 := BusOnly.of_write h
        unfold BusOnly at h1 ⊢
        rw [h1]
      exact hk u (ht.trans (BusOnly.of_write h')) (by rw [hp, h'])

/-- An outcome that is a continuation `x` of `pop16()`, where `x` ends a raised step; of the state after a
completed pop, all but storage, the interrupt registers and the latch is `s` with SP two higher. -/
theorem popsThen_of {s : State} {o : Out} {K : Byte → Byte → State → Prop} (x : Res Word → Out)
    (ho : o = x (pop16 s)) (hr : ∀ t, x (.raised t) = .next t)
    (hk : ∀ hi lo t, BusOnly { s with sp := s.sp + 2 } t → o = x (.ok (wordOf hi lo) t) → K hi lo t) :
    PopsThen s o K := by
  subst ho
  refine readsThen_of ?_ ?_
  · intro t h
    simp only [pop16, popByte]
    rw [h, Res.bind_raised, Res.bind_raised, hr]
  · intro lo t h
    have hsp : t.sp = s.sp := (BusOnly.of_read h).sp
    refine readsThen_of ?_ ?_
    · intro u h'
      simp only [pop16, popByte]
      rw [h, Res.bind_ok, Res.bind_ok]
      simp only [hsp]
      rw [h', Res.bind_raised, Res.bind_raised, hr]
    · intro hi u h'
      have hsp' : u.sp = s.sp + 1 := (BusOnly.of_read h').sp
      have ht : BusOnly { s with sp := s.sp + 2 } { u with sp := s.sp + 2 } := by
        have h1 := BusOnly.of_read h
        have h2 := BusOnly.of_read h'
        unfold BusOnly at h1 h2 ⊢
        rw [h2, h1]
      refine hk _ _ _ ht ?_
      simp only [pop16, popByte]
      rw [h, Res.bind_ok, Res.bind_ok]
      simp only [hsp]
      rw [h', Res.bind_ok, Res.bind_ok, hsp', show s.sp + 1 + 1 = s.sp + 2 by bv_omega]

end Sys2Proof.Machine
end

