-- ==== Sys2Proof/Laws/Device.lean ====
section
/-! SUPPORT. Device programs lose nothing: every entry point on finitely many owner states, whatever it answers,
fails on and moves to, is the behaviour of some program (20_memory.md rules R62, R71, R72). -/

namespace Sys2Proof.Machine

/-- Every function of a bounded owner state, the address and the byte is some expression's value: a table of
it, looked up at the number the three form. -/
theorem DeviceExpr.exists_eval (n : Nat) (f : Nat → Word → Byte → Nat) :
    ∃ e : DeviceExpr, ∀ q a v, q < n → e.eval q a v = f q a v := by
  refine ⟨.lookup
    ((List.range (n * 16777216)).map fun k =>
      f (k / 16777216) (BitVec.ofNat 16 (k / 256)) (BitVec.ofNat 8 k))
    (.op .add (.op .mul (.op .add (.op .mul .state (.const 65536)) .addr) (.const 256)) .byte), ?_⟩
  intro q a v hq
  have ha := a.isLt
  have hv := v.isLt
  have hk : (q * 65536 + a.toNat) * 256 + v.toNat < n * 16777216 := by omega
  have h1 : ((q * 65536 + a.toNat) * 256 + v.toNat) / 16777216 = q := by omega
  have h2 : BitVec.ofNat 16 (((q * 65536 + a.toNat) * 256 + v.toNat) / 256) = a := by
    apply BitVec.eq_of_toNat_eq
    simp only [BitVec.toNat_ofNat]
    omega
  have h3 : BitVec.ofNat 8 ((q * 65536 + a.toNat) * 256 + v.toNat) = v := by
    apply BitVec.eq_of_toNat_eq
    simp only [BitVec.toNat_ofNat]
    omega
  simp only [DeviceExpr.eval, DeviceOp.eval, List.getD_eq_getElem?_getD, List.getElem?_map,
    List.getElem?_range hk, Option.map_some, Option.getD_some, h1, h2, h3]

/-- Every entry point on owner states below `n` is some program's. -/
theorem EntryPoint.exists_of (n : Nat) (fails : Nat → Word → Byte → Bool) (value : Nat → Word → Byte → Byte)
    (next : Nat → Word → Byte → Nat) :
    ∃ e : EntryPoint, ∀ q a v, q < n →
      e.failing q a v = fails q a v ∧ e.reply q a v = value q a v ∧ e.after q a v = next q a v := by
  obtain ⟨ef, hf⟩ := DeviceExpr.exists_eval n fun q a v => (fails q a v).toNat
  obtain ⟨ev, hv⟩ := DeviceExpr.exists_eval n fun q a v => (value q a v).toNat
  obtain ⟨en, hn⟩ := DeviceExpr.exists_eval n next
  refine ⟨⟨ef, ev, en⟩, fun q a v hq => ⟨?_, ?_, hn q a v hq⟩⟩
  · simp only [EntryPoint.failing, hf q a v hq]
    cases fails q a v <;> rfl
  · simp only [EntryPoint.reply, hv q a v hq, BitVec.ofNat_toNat, BitVec.setWidth_eq]

end Sys2Proof.Machine
end

