-- ==== Sys2Proof/Laws/PerInstr.lean ====
section
/-! SUPPORT. The per-instruction families of LAWS.json. `EncodedLength`: the encoder writes as many bytes
as the opcode table's `length` says (30_encoding.md rule R100). -/

/-- The bytes the encoder writes for the instruction are as many as the table gives it (R100). -/
def Sys2Proof.Laws.EncodedLength.Statement (i : Sys2Proof.Instr) : Prop :=
  (Sys2Proof.encode i).length = i.length

namespace Sys2Proof.Laws

theorem EncodedLength.ldRR (dst src : Reg8) : EncodedLength.Statement (.ldRR dst src) := rfl
theorem EncodedLength.ldRHl (dst : Reg8) : EncodedLength.Statement (.ldRHl dst) := rfl
theorem EncodedLength.ldHlR (src : Reg8) : EncodedLength.Statement (.ldHlR src) := rfl
theorem EncodedLength.ldRD8 (dst : Reg8) (v : Byte) : EncodedLength.Statement (.ldRD8 dst v) := rfl
theorem EncodedLength.ldHlD8 (v : Byte) : EncodedLength.Statement (.ldHlD8 v) := rfl
theorem EncodedLength.ldABc : EncodedLength.Statement .ldABc := rfl
theorem EncodedLength.ldADe : EncodedLength.Statement .ldADe := rfl
theorem EncodedLength.ldBcA : EncodedLength.Statement .ldBcA := rfl
theorem EncodedLength.ldDeA : EncodedLength.Statement .ldDeA := rfl
theorem EncodedLength.ldAA16 (addr : Word) : EncodedLength.Statement (.ldAA16 addr) := rfl
theorem EncodedLength.ldA16A (addr : Word) : EncodedLength.Statement (.ldA16A addr) := rfl
theorem EncodedLength.ldhAA8 (n : Byte) : EncodedLength.Statement (.ldhAA8 n) := rfl
theorem EncodedLength.ldhA8A (n : Byte) : EncodedLength.Statement (.ldhA8A n) := rfl
theorem EncodedLength.ldAC : EncodedLength.Statement .ldAC := rfl
theorem EncodedLength.ldCA : EncodedLength.Statement .ldCA := rfl
theorem EncodedLength.ldAHlInc : EncodedLength.Statement .ldAHlInc := rfl
theorem EncodedLength.ldAHlDec : EncodedLength.Statement .ldAHlDec := rfl
theorem EncodedLength.ldHlIncA : EncodedLength.Statement .ldHlIncA := rfl
theorem EncodedLength.ldHlDecA : EncodedLength.Statement .ldHlDecA := rfl
theorem EncodedLength.ldRpD16 (rp : Rp) (v : Word) : EncodedLength.Statement (.ldRpD16 rp v) := rfl
theorem EncodedLength.ldA16Sp (addr : Word) : EncodedLength.Statement (.ldA16Sp addr) := rfl
theorem EncodedLength.ldSpHl : EncodedLength.Statement .ldSpHl := rfl
theorem EncodedLength.ldHlSpE (e : Byte) : EncodedLength.Statement (.ldHlSpE e) := rfl
theorem EncodedLength.push (rp : Rp2) : EncodedLength.Statement (.push rp) := rfl
theorem EncodedLength.pop (rp : Rp2) : EncodedLength.Statement (.pop rp) := rfl
theorem EncodedLength.pushAf : EncodedLength.Statement .pushAf := rfl
theorem EncodedLength.popAf : EncodedLength.Statement .popAf := rfl
theorem EncodedLength.addAR (r : Reg8) : EncodedLength.Statement (.addAR r) := rfl
theorem EncodedLength.addAHl : EncodedLength.Statement .addAHl := rfl
theorem EncodedLength.addAD8 (v : Byte) : EncodedLength.Statement (.addAD8 v) := rfl
theorem EncodedLength.adcAR (r : Reg8) : EncodedLength.Statement (.adcAR r) := rfl
theorem EncodedLength.adcAHl : EncodedLength.Statement .adcAHl := rfl
theorem EncodedLength.adcAD8 (v : Byte) : EncodedLength.Statement (.adcAD8 v) := rfl
theorem EncodedLength.subR (r : Reg8) : EncodedLength.Statement (.subR r) := rfl
theorem EncodedLength.subHl : EncodedLength.Statement .subHl := rfl
theorem EncodedLength.subD8 (v : Byte) : EncodedLength.Statement (.subD8 v) := rfl
theorem EncodedLength.sbcAR (r : Reg8) : EncodedLength.Statement (.sbcAR r) := rfl
theorem EncodedLength.sbcAHl : EncodedLength.Statement .sbcAHl := rfl
theorem EncodedLength.sbcAD8 (v : Byte) : EncodedLength.Statement (.sbcAD8 v) := rfl
theorem EncodedLength.andR (r : Reg8) : EncodedLength.Statement (.andR r) := rfl
theorem EncodedLength.andHl : EncodedLength.Statement .andHl := rfl
theorem EncodedLength.andD8 (v : Byte) : EncodedLength.Statement (.andD8 v) := rfl
theorem EncodedLength.xorR (r : Reg8) : EncodedLength.Statement (.xorR r) := rfl
theorem EncodedLength.xorHl : EncodedLength.Statement .xorHl := rfl
theorem EncodedLength.xorD8 (v : Byte) : EncodedLength.Statement (.xorD8 v) := rfl
theorem EncodedLength.orR (r : Reg8) : EncodedLength.Statement (.orR r) := rfl
theorem EncodedLength.orHl : EncodedLength.Statement .orHl := rfl
theorem EncodedLength.orD8 (v : Byte) : EncodedLength.Statement (.orD8 v) := rfl
theorem EncodedLength.cpR (r : Reg8) : EncodedLength.Statement (.cpR r) := rfl
theorem EncodedLength.cpHl : EncodedLength.Statement .cpHl := rfl
theorem EncodedLength.cpD8 (v : Byte) : EncodedLength.Statement (.cpD8 v) := rfl
theorem EncodedLength.incR (r : Reg8) : EncodedLength.Statement (.incR r) := rfl
theorem EncodedLength.incHl : EncodedLength.Statement .incHl := rfl
theorem EncodedLength.decR (r : Reg8) : EncodedLength.Statement (.decR r) := rfl
theorem EncodedLength.decHl : EncodedLength.Statement .decHl := rfl
theorem EncodedLength.daa : EncodedLength.Statement .daa := rfl
theorem EncodedLength.cpl : EncodedLength.Statement .cpl := rfl
theorem EncodedLength.scf : EncodedLength.Statement .scf := rfl
theorem EncodedLength.ccf : EncodedLength.Statement .ccf := rfl
theorem EncodedLength.incRp (rp : Rp) : EncodedLength.Statement (.incRp rp) := rfl
theorem EncodedLength.decRp (rp : Rp) : EncodedLength.Statement (.decRp rp) := rfl
theorem EncodedLength.addHlRp (rp : Rp) : EncodedLength.Statement (.addHlRp rp) := rfl
theorem EncodedLength.addSpE (e : Byte) : EncodedLength.Statement (.addSpE e) := rfl
theorem EncodedLength.rlca : EncodedLength.Statement .rlca := rfl
theorem EncodedLength.rrca : EncodedLength.Statement .rrca := rfl
theorem EncodedLength.rla : EncodedLength.Statement .rla := rfl
theorem EncodedLength.rra : EncodedLength.Statement .rra := rfl
theorem EncodedLength.rlcR (r : Reg8) : EncodedLength.Statement (.rlcR r) := rfl
theorem EncodedLength.rlcHl : EncodedLength.Statement .rlcHl := rfl
theorem EncodedLength.rrcR (r : Reg8) : EncodedLength.Statement (.rrcR r) := rfl
theorem EncodedLength.rrcHl : EncodedLength.Statement .rrcHl := rfl
theorem EncodedLength.rlR (r : Reg8) : EncodedLength.Statement (.rlR r) := rfl
theorem EncodedLength.rlHl : EncodedLength.Statement .rlHl := rfl
theorem EncodedLength.rrR (r : Reg8) : EncodedLength.Statement (.rrR r) := rfl
theorem EncodedLength.rrHl : EncodedLength.Statement .rrHl := rfl
theorem EncodedLength.slaR (r : Reg8) : EncodedLength.Statement (.slaR r) := rfl
theorem EncodedLength.slaHl : EncodedLength.Statement .slaHl := rfl
theorem EncodedLength.sraR (r : Reg8) : EncodedLength.Statement (.sraR r) := rfl
theorem EncodedLength.sraHl : EncodedLength.Statement .sraHl := rfl
theorem EncodedLength.swapR (r : Reg8) : EncodedLength.Statement (.swapR r) := rfl
theorem EncodedLength.swapHl : EncodedLength.Statement .swapHl := rfl
theorem EncodedLength.srlR (r : Reg8) : EncodedLength.Statement (.srlR r) := rfl
theorem EncodedLength.srlHl : EncodedLength.Statement .srlHl := rfl
theorem EncodedLength.bitBR (b : Nat) (r : Reg8) : EncodedLength.Statement (.bitBR b r) := rfl
theorem EncodedLength.bitBHl (b : Nat) : EncodedLength.Statement (.bitBHl b) := rfl
theorem EncodedLength.resBR (b : Nat) (r : Reg8) : EncodedLength.Statement (.resBR b r) := rfl
theorem EncodedLength.resBHl (b : Nat) : EncodedLength.Statement (.resBHl b) := rfl
theorem EncodedLength.setBR (b : Nat) (r : Reg8) : EncodedLength.Statement (.setBR b r) := rfl
theorem EncodedLength.setBHl (b : Nat) : EncodedLength.Statement (.setBHl b) := rfl
theorem EncodedLength.jpA16 (addr : Word) : EncodedLength.Statement (.jpA16 addr) := rfl
theorem EncodedLength.jpCcA16 (cc : Cond) (addr : Word) : EncodedLength.Statement (.jpCcA16 cc addr) := rfl
theorem EncodedLength.jpHl : EncodedLength.Statement .jpHl := rfl
theorem EncodedLength.jrE (e : Byte) : EncodedLength.Statement (.jrE e) := rfl
theorem EncodedLength.jrCcE (cc : Cond) (e : Byte) : EncodedLength.Statement (.jrCcE cc e) := rfl
theorem EncodedLength.callA16 (addr : Word) : EncodedLength.Statement (.callA16 addr) := rfl
theorem EncodedLength.callCcA16 (cc : Cond) (addr : Word) : EncodedLength.Statement (.callCcA16 cc addr) := rfl
theorem EncodedLength.ret : EncodedLength.Statement .ret := rfl
theorem EncodedLength.reti : EncodedLength.Statement .reti := rfl
theorem EncodedLength.retCc (cc : Cond) : EncodedLength.Statement (.retCc cc) := rfl
theorem EncodedLength.rstT (t : Nat) : EncodedLength.Statement (.rstT t) := rfl
theorem EncodedLength.nop : EncodedLength.Statement .nop := rfl
theorem EncodedLength.prefixCb : EncodedLength.Statement .prefixCb := rfl
theorem EncodedLength.halt : EncodedLength.Statement .halt := rfl
theorem EncodedLength.stop (pad : Byte) : EncodedLength.Statement (.stop pad) := rfl
theorem EncodedLength.di : EncodedLength.Statement .di := rfl
theorem EncodedLength.ei : EncodedLength.Statement .ei := rfl
theorem EncodedLength.illegalD3 : EncodedLength.Statement .illegalD3 := rfl
theorem EncodedLength.illegalDB : EncodedLength.Statement .illegalDB := rfl
theorem EncodedLength.illegalDD : EncodedLength.Statement .illegalDD := rfl
theorem EncodedLength.illegalE3 : EncodedLength.Statement .illegalE3 := rfl
theorem EncodedLength.illegalE4 : EncodedLength.Statement .illegalE4 := rfl
theorem EncodedLength.illegalEB : EncodedLength.Statement .illegalEB := rfl
theorem EncodedLength.illegalEC : EncodedLength.Statement .illegalEC := rfl
theorem EncodedLength.illegalED : EncodedLength.Statement .illegalED := rfl
theorem EncodedLength.illegalF4 : EncodedLength.Statement .illegalF4 := rfl
theorem EncodedLength.illegalFC : EncodedLength.Statement .illegalFC := rfl
theorem EncodedLength.illegalFD : EncodedLength.Statement .illegalFD := rfl

end Sys2Proof.Laws
end

