-- ==== Sys2Proof/Laws/Step.lean ====
section
/-! SUPPORT. Where the next move comes from, and what a step of an undisturbed CPU is. -/

namespace Sys2Proof.Machine

/-- A pending move comes first (R14). -/
theorem State.takeMove_pending {s : State} {m : Move} {rest : List Move} (h : s.inputs = m :: rest) :
    s.takeMove = (m, { s with inputs := rest }) := by
  simp [State.takeMove, h]

/-- After the pending moves, the next free move of a free run. -/
theorem State.takeMove_free {s : State} {k : Nat} (h : s.inputs = []) (hk : s.freeRun = some k) :
    s.takeMove = (Config.freeMove k s.turn, { s with turn := s.turn + 1 }) := by
  simp [State.takeMove, h, hk]

/-- Without a move of the environment, a CPU step. -/
theorem State.takeMove_quiet {s : State} (h : s.inputs = []) (hk : s.freeRun = none) :
    s.takeMove = (.cpuStep, s) := by
  simp [State.takeMove, h, hk]

/-- Nothing holds an active CPU. -/
theorem State.cpuHeld_of_active {s : State} (h : s.active) : s.cpuHeld = false := by
  obtain ⟨-, -, hf, hs, hl⟩ := h
  rcases hl with hl | hl <;> simp [State.cpuHeld, State.lockFreeFor, hf, hs, hl]

/-- A step of an active CPU that is not halted is its dispatch (R40). -/
theorem step_of_active {s : State} (h : s.active) (hh : s.halted = false) : step s = dispatchStep s := by
  have hc := State.cpuHeld_of_active h
  simp [step, nextAction, h.2.2.1, State.takeMove_quiet h.1 h.2.1, runMove, cpuStep, hc, hh]

/-- A step that dispatches fetches an instruction and runs it (R102). -/
theorem step_of_dispatches {s : State} (h : s.dispatches) : step s = normalDispatch s := by
  rw [step_of_active h.1 h.2.1]
  simp only [dispatchStep, h.2.2]

end Sys2Proof.Machine
end

