-- ==== Sys2Proof/Tests/Slice0.lean ====
section
/-! SUPPORT. The model's own tests. Expected values are the worked vectors of 95_test_vectors.md (named V
with the part's number) or the encoding and pseudocode lines of the rules; none is the model's own answer.
The last part shows, for each statement that has hypotheses, values that meet them. -/

namespace Sys2Proof.Tests

open Sys2Proof.Machine

/-! ## Helpers -/

/-- The reset state with code placed at PC. -/
def code (bs : List Byte) (s : State) : State := s.pokeAll s.pc bs

/-- The state after one step, itself if there is none. -/
def after (s : State) : State :=
  match step s with
  | .next t => t
  | .fault _ => s
  | .refused _ => s

/-- One step of the given code. -/
def run (bs : List Byte) (s : State) : State := after (code bs s)

/-- The decoder reads exactly this instruction from these bytes, and the encoder writes them. -/
def reads (bs : List Byte) (i : Instr) : Bool :=
  match decode bs with
  | .ok (j, []) => decide (j = i) && decide (encode i = bs)
  | _ => false

/-- F as the vectors write it, `ZNHC`. -/
def znhc (s : State) : Nat := s.f.toByte.toNat / 16

/-- Flags from the vectors' four bits. -/
def flags (n : Nat) : Flags := Flags.ofByte (BitVec.ofNat 8 (n * 16))

/-- The reset state with A, F and B as given. -/
def acc (a : Byte) (n : Nat) (b : Byte) : State := { State.reset with a := a, f := flags n, b := b }

/-- The reset state with HL at the given address and a byte there. -/
def atHl (a : Word) (v : Byte) : State := (State.reset.setHl a).poke a v

/-! ## Well-formedness: one ill-formed term for each check (R108) -/

theorem test_wf_refuses_bitBR : (Instr.bitBR 8 .a).wf = false := by decide
theorem test_wf_refuses_bitBHl : (Instr.bitBHl 8).wf = false := by decide
theorem test_wf_refuses_resBR : (Instr.resBR 8 .a).wf = false := by decide
theorem test_wf_refuses_resBHl : (Instr.resBHl 8).wf = false := by decide
theorem test_wf_refuses_setBR : (Instr.setBR 8 .a).wf = false := by decide
theorem test_wf_refuses_setBHl : (Instr.setBHl 8).wf = false := by decide
theorem test_wf_refuses_rstT : (Instr.rstT 8).wf = false := by decide
theorem test_wf_accepts_bounds :
    ([.bitBR 7 .a, .bitBHl 7, .resBR 7 .a, .resBHl 7, .setBR 7 .a, .setBHl 7, .rstT 7] :
      List Instr).all Instr.wf = true := by decide

/-! ## Decoding: the bytes of every constructor, written from R100 to R115 -/

theorem test_decode_load8 :
    (reads [0x41] (.ldRR .b .c) && reads [0x7E] (.ldRHl .a) && reads [0x70] (.ldHlR .b) &&
     reads [0x3E, 0x42] (.ldRD8 .a 0x42) && reads [0x36, 0x99] (.ldHlD8 0x99) && reads [0x0A] .ldABc &&
     reads [0x1A] .ldADe && reads [0x02] .ldBcA && reads [0x12] .ldDeA &&
     reads [0xFA, 0x0F, 0xFF] (.ldAA16 0xFF0F) && reads [0xEA, 0x00, 0xC0] (.ldA16A 0xC000) &&
     reads [0xF0, 0x80] (.ldhAA8 0x80) && reads [0xE0, 0xFF] (.ldhA8A 0xFF) && reads [0xF2] .ldAC &&
     reads [0xE2] .ldCA && reads [0x2A] .ldAHlInc && reads [0x3A] .ldAHlDec &&
     reads [0x22] .ldHlIncA && reads [0x32] .ldHlDecA) = true := by decide

theorem test_decode_load16 :
    (reads [0x21, 0x34, 0x12] (.ldRpD16 .hl 0x1234) && reads [0x08, 0x00, 0xC1] (.ldA16Sp 0xC100) &&
     reads [0xF9] .ldSpHl && reads [0xF8, 0x02] (.ldHlSpE 0x02) && reads [0xC5] (.push .bc) &&
     reads [0xD1] (.pop .de) && reads [0xF5] .pushAf && reads [0xF1] .popAf) = true := by decide

theorem test_decode_alu8 :
    (reads [0x80] (.addAR .b) && reads [0x86] .addAHl && reads [0xC6, 0x01] (.addAD8 0x01) &&
     reads [0x8F] (.adcAR .a) && reads [0x8E] .adcAHl && reads [0xCE, 0x01] (.adcAD8 0x01) &&
     reads [0x93] (.subR .e) && reads [0x96] .subHl && reads [0xD6, 0x05] (.subD8 0x05) &&
     reads [0x9A] (.sbcAR .d) && reads [0x9E] .sbcAHl && reads [0xDE, 0x01] (.sbcAD8 0x01) &&
     reads [0xA1] (.andR .c) && reads [0xA6] .andHl && reads [0xE6, 0x0F] (.andD8 0x0F) &&
     reads [0xAF] (.xorR .a) && reads [0xAE] .xorHl && reads [0xEE, 0xFF] (.xorD8 0xFF) &&
     reads [0xB4] (.orR .h) && reads [0xB6] .orHl && reads [0xF6, 0x80] (.orD8 0x80) &&
     reads [0xBD] (.cpR .l) && reads [0xBE] .cpHl && reads [0xFE, 0x3C] (.cpD8 0x3C) &&
     reads [0x04] (.incR .b) && reads [0x34] .incHl && reads [0x2D] (.decR .l) && reads [0x35] .decHl &&
     reads [0x27] .daa && reads [0x2F] .cpl && reads [0x37] .scf && reads [0x3F] .ccf) = true := by
  decide

theorem test_decode_alu16_and_rotates :
    (reads [0x33] (.incRp .sp) && reads [0x0B] (.decRp .bc) && reads [0x29] (.addHlRp .hl) &&
     reads [0xE8, 0xFE] (.addSpE 0xFE) && reads [0x07] .rlca && reads [0x0F] .rrca && reads [0x17] .rla &&
     reads [0x1F] .rra) = true := by decide

theorem test_decode_cb :
    (reads [0xCB, 0x00] (.rlcR .b) && reads [0xCB, 0x06] .rlcHl && reads [0xCB, 0x0F] (.rrcR .a) &&
     reads [0xCB, 0x0E] .rrcHl && reads [0xCB, 0x15] (.rlR .l) && reads [0xCB, 0x16] .rlHl &&
     reads [0xCB, 0x19] (.rrR .c) && reads [0xCB, 0x1E] .rrHl && reads [0xCB, 0x22] (.slaR .d) &&
     reads [0xCB, 0x26] .slaHl && reads [0xCB, 0x2B] (.sraR .e) && reads [0xCB, 0x2E] .sraHl &&
     reads [0xCB, 0x34] (.swapR .h) && reads [0xCB, 0x36] .swapHl && reads [0xCB, 0x3F] (.srlR .a) &&
     reads [0xCB, 0x3E] .srlHl && reads [0xCB, 0x7F] (.bitBR 7 .a) && reads [0xCB, 0x46] (.bitBHl 0) &&
     reads [0xCB, 0xBF] (.resBR 7 .a) && reads [0xCB, 0x9E] (.resBHl 3) &&
     reads [0xCB, 0xDF] (.setBR 3 .a) && reads [0xCB, 0xFE] (.setBHl 7)) = true := by decide

theorem test_decode_control :
    (reads [0xC3, 0x50, 0x01] (.jpA16 0x0150) && reads [0xCA, 0x00, 0x02] (.jpCcA16 .z 0x0200) &&
     reads [0xE9] .jpHl && reads [0x18, 0xFE] (.jrE 0xFE) && reads [0x20, 0xFB] (.jrCcE .nz 0xFB) &&
     reads [0xCD, 0x00, 0x20] (.callA16 0x2000) && reads [0xDC, 0x00, 0x20] (.callCcA16 .c 0x2000) &&
     reads [0xC9] .ret && reads [0xD9] .reti && reads [0xD0] (.retCc .nc) && reads [0xEF] (.rstT 5)) =
      true := by decide

theorem test_decode_system :
    (reads [0x00] .nop && reads [0x76] .halt && reads [0x10, 0x00] (.stop 0x00) && reads [0xF3] .di &&
     reads [0xFB] .ei && reads [0xCB] .prefixCb && reads [0xD3] .illegalD3 && reads [0xDB] .illegalDB &&
     reads [0xDD] .illegalDD && reads [0xE3] .illegalE3 && reads [0xE4] .illegalE4 &&
     reads [0xEB] .illegalEB && reads [0xEC] .illegalEC && reads [0xED] .illegalED &&
     reads [0xF4] .illegalF4 && reads [0xFC] .illegalFC && reads [0xFD] .illegalFD) = true := by decide

theorem test_decode_refuses_short :
    decode [] = .error .noBytes ∧ decode [0xC3, 0x50] = .error (.missingImmediate 0xC3 2) :=
  ⟨rfl, rfl⟩

/-- Table words: the first byte is bits 7..0, the second 15..8. -/
theorem test_table_words :
    decodeTableWord 8 0x41 = some (.ldRR .b .c) ∧ decodeTableWord 24 0x0150C3 = some (.jpA16 0x0150) ∧
    decodeTableWord 16 0x15CB = some (.rlR .l) ∧ decodeTableWord 8 0xC3 = some (.jpA16 0x0000) ∧
    decodeTableWord 8 0xCB = some .prefixCb := by decide

theorem test_fetch_word :
    (after (State.reset.withFetchWord 8 0x04)).b = 0x01 ∧
    (after (State.reset.withFetchWord 16 0x427E)).pc = 0x0101 ∧
    (after (State.reset.withFetchWord 16 0xC0CB)).b = 0x01 := by decide

/-! ## Loads (V2.6) -/

theorem test_ld_b_c : (run [0x41] { State.reset with c := 0x34 }).b = 0x34 := by decide
theorem test_ld_a_hl_echo : (run [0x7E] ((atHl 0xE010 0x00).poke 0xC010 0x5A)).a = 0x5A := by decide
theorem test_ld_hl_a_echo :
    (run [0x77] { atHl 0xE010 0x00 with a := 0x11 }).peek 0xC010 = some 0x11 := by decide
theorem test_ld_hl_b_rom :
    run [0x70] { atHl 0x2000 0x00 with b := 0x01 } =
      { code [0x70] { atHl 0x2000 0x00 with b := 0x01 } with pc := 0x0101, cyc := 2 } := by decide
theorem test_ld_a_d8 :
    let t := run [0x3E, 0x42] State.reset
    t.a = 0x42 ∧ t.cyc = 2 ∧ t.pc = 0x0102 := by decide
theorem test_ld_hl_d8 :
    let t := run [0x36, 0x99] (atHl 0xC000 0x00)
    t.peek 0xC000 = some 0x99 ∧ t.cyc = 3 := by decide
theorem test_ld_a_bc_and_de :
    (run [0x0A] ({ State.reset with b := 0xC0, c := 0x07 }.poke 0xC007 0x21)).a = 0x21 ∧
    (run [0x1A] ({ State.reset with d := 0xC0, e := 0x08 }.poke 0xC008 0x22)).a = 0x22 := by decide
theorem test_ld_bc_and_de_a :
    (run [0x02] { State.reset with b := 0xC0, c := 0x07 }).peek 0xC007 = some 0x01 ∧
    (run [0x12] { State.reset with d := 0xC0, e := 0x08 }).peek 0xC008 = some 0x01 := by decide
theorem test_ld_a_a16 :
    let t := run [0xFA, 0x00, 0xC0] (State.reset.poke 0xC000 0x5A)
    t.a = 0x5A ∧ t.cyc = 4 := by decide
theorem test_ld_a16_a_unmapped :
    let t := run [0xEA, 0x00, 0x80] State.reset
    t.fault = some (.unmappedAddress 0x8000 .write) ∧ t.pc = 0x0103 ∧ t.cyc = 0 := by decide
theorem test_ldh_a_if : (run [0xF0, 0x0F] { State.reset with ifl := 0xE3 }).a = 0xE3 := by decide
theorem test_ldh_a_unmapped :
    (run [0xF0, 0x00] State.reset).fault = some (.unmappedAddress 0xFF00 .read) := by decide
theorem test_ldh_ie_a : (run [0xE0, 0xFF] { State.reset with a := 0x05 }).ie = 0x05 := by decide
theorem test_ldh_if_a : (run [0xE0, 0x0F] { State.reset with a := 0xFF }).ifl = 0xFF := by decide
theorem test_ld_c_a :
    (run [0xE2] { State.reset with c := 0x80, a := 0x44 }).peek 0xFF80 = some 0x44 := by decide
theorem test_ld_a_c : (run [0xF2] { State.reset with c := 0x0F, ifl := 0x1C }).a = 0x1C := by decide
theorem test_ld_a_hl_inc_wraps :
    let t := run [0x2A] { atHl 0xFFFF 0x00 with ie := 0x15 }
    t.a = 0x15 ∧ t.hl = 0x0000 := by decide
theorem test_ld_a_hl_dec_wraps :
    let t := run [0x3A] (atHl 0x0000 0x9C)
    t.a = 0x9C ∧ t.hl = 0xFFFF := by decide
theorem test_ld_hl_inc_a :
    let t := run [0x22] { atHl 0xDFFF 0x00 with a := 0xAA }
    t.peek 0xDFFF = some 0xAA ∧ t.hl = 0xE000 := by decide
theorem test_ld_hl_dec_a :
    let t := run [0x32] { atHl 0xC000 0x00 with a := 0xBB }
    t.peek 0xC000 = some 0xBB ∧ t.hl = 0xBFFF := by decide
theorem test_ld_rp_d16 :
    let t := run [0x21, 0x34, 0x12] State.reset
    t.h = 0x12 ∧ t.l = 0x34 ∧ t.cyc = 3 := by decide
theorem test_ld_a16_sp :
    let t := run [0x08, 0x00, 0xC1] { State.reset with sp := 0xFFF8 }
    t.peek 0xC100 = some 0xF8 ∧ t.peek 0xC101 = some 0xFF ∧ t.cyc = 5 := by decide
theorem test_ld_sp_hl : (run [0xF9] (atHl 0xDFFF 0x00)).sp = 0xDFFF := by decide
theorem test_push_bc :
    let t := run [0xC5] { State.reset with b := 0x12, c := 0x34 }
    t.peek 0xFFFD = some 0x12 ∧ t.peek 0xFFFC = some 0x34 ∧ t.sp = 0xFFFC ∧ t.cyc = 4 := by decide
theorem test_push_second_write_faults :
    let t := run [0xC5] { State.reset with b := 0x12, sp := 0xFF81 }
    t.peek 0xFF80 = some 0x12 ∧ t.sp = 0xFF7F ∧ t.fault = some (.unmappedAddress 0xFF7F .write) := by
  decide
theorem test_pop_bc_wraps :
    let t := run [0xC1] ({ State.reset with ie := 0x15 }.poke 0xFFFE 0x77)
    t.c = 0x77 ∧ t.b = 0x15 ∧ t.sp = 0x0000 := by decide
theorem test_push_af :
    let t := run [0xF5] { State.reset with a := 0x12 }
    t.peek 0xFFFD = some 0x12 ∧ t.peek 0xFFFC = some 0xB0 := by decide
theorem test_pop_af_masks :
    let t := run [0xF1] (({ State.reset with sp := 0xFFFC }.poke 0xFFFC 0xFF).poke 0xFFFD 0x12)
    t.a = 0x12 ∧ t.f.toByte = 0xF0 ∧ t.sp = 0xFFFE ∧ t.cyc = 3 := by decide

/-! ## 8-bit arithmetic (V2.1, V2.2, S2, S3) -/

theorem test_add_r : (run [0x80] (acc 0x3A 0 0xC6)).a = 0x00 ∧ znhc (run [0x80] (acc 0x3A 0 0xC6)) = 0b1011 := by
  decide
theorem test_add_d8 :
    znhc (run [0xC6, 0x01] (acc 0x0F 0b1101 0)) = 0b0010 ∧ (run [0xC6, 0x01] (acc 0x0F 0 0)).cyc = 2 := by
  decide
theorem test_adc_r_keeps_carry_in :
    (run [0x88] (acc 0x00 1 0xFF)).a = 0x00 ∧ znhc (run [0x88] (acc 0x00 1 0xFF)) = 0b1011 := by decide
theorem test_adc_d8 :
    (run [0xCE, 0x0F] (acc 0x10 1 0)).a = 0x20 ∧ znhc (run [0xCE, 0x0F] (acc 0x10 1 0)) = 0b0010 := by
  decide
theorem test_sub_r :
    (run [0x90] (acc 0x3A 0 0xC6)).a = 0x74 ∧ znhc (run [0x90] (acc 0x3A 0 0xC6)) = 0b0101 := by decide
theorem test_sub_d8 :
    (run [0xD6, 0x0F] (acc 0xF0 0 0)).a = 0xE1 ∧ znhc (run [0xD6, 0x0F] (acc 0xF0 0 0)) = 0b0110 := by
  decide
theorem test_sbc_r_keeps_carry_in :
    (run [0x98] (acc 0x10 1 0x0F)).a = 0x00 ∧ znhc (run [0x98] (acc 0x10 1 0x0F)) = 0b1110 := by decide
theorem test_sbc_d8 :
    (run [0xDE, 0xFF] (acc 0x00 1 0)).a = 0x00 ∧ znhc (run [0xDE, 0xFF] (acc 0x00 1 0)) = 0b1111 := by
  decide
theorem test_and_r : znhc (run [0xA0] (acc 0xF0 1 0x0F)) = 0b1010 := by decide
theorem test_and_d8 : (run [0xE6, 0xC6] (acc 0x3A 0 0)).a = 0x02 := by decide
theorem test_xor_r : znhc (run [0xA8] (acc 0xA5 1 0xA5)) = 0b1000 := by decide
theorem test_xor_d8 : (run [0xEE, 0xC6] (acc 0x3A 0 0)).a = 0xFC := by decide
theorem test_or_r : (run [0xB0] (acc 0x3A 0 0xC6)).a = 0xFE := by decide
theorem test_or_d8 : znhc (run [0xF6, 0x00] (acc 0x00 1 0)) = 0b1000 := by decide
theorem test_cp_r : (run [0xB8] (acc 0x3C 0 0x2F)).a = 0x3C ∧ znhc (run [0xB8] (acc 0x3C 0 0x2F)) = 0b0110 := by
  decide
theorem test_cp_d8 : znhc (run [0xFE, 0x01] (acc 0x00 0 0)) = 0b0111 := by decide

/-- The (HL) forms on 0x3A and the byte 0xC6 (row 5 of V2.1). -/
theorem test_alu_hl :
    let s : State := { atHl 0xC000 0xC6 with a := 0x3A, f := flags 0 }
    (run [0x86] s).a = 0x00 ∧ (run [0x8E] s).a = 0x00 ∧ (run [0x96] s).a = 0x74 ∧ (run [0x9E] s).a = 0x74 ∧
    (run [0xA6] s).a = 0x02 ∧ (run [0xAE] s).a = 0xFC ∧ (run [0xB6] s).a = 0xFE ∧
    znhc (run [0xBE] s) = 0b0101 ∧ (run [0xBE] s).a = 0x3A := by decide

theorem test_inc_r : (run [0x04] (acc 0 15 0xFF)).b = 0x00 ∧ znhc (run [0x04] (acc 0 15 0xFF)) = 0b1011 := by
  decide
theorem test_dec_r : (run [0x05] (acc 0 15 0x10)).b = 0x0F ∧ znhc (run [0x05] (acc 0 15 0x10)) = 0b0111 := by
  decide
theorem test_inc_hl :
    let t := run [0x34] (atHl 0xC000 0x7F)
    t.peek 0xC000 = some 0x80 ∧ znhc t = 0b0011 ∧ t.cyc = 3 := by decide
theorem test_dec_hl_unmapped :
    let t := run [0x35] (State.reset.setHl 0x8000)
    t.fault = some (.unmappedAddress 0x8000 .read) ∧ znhc t = 0b1011 := by decide
theorem test_dec_hl : (run [0x35] (atHl 0xC000 0x00)).peek 0xC000 = some 0xFF := by decide
theorem test_daa_add : (run [0x27] (acc 0x9A 0 0)).a = 0x00 ∧ znhc (run [0x27] (acc 0x9A 0 0)) = 0b1001 := by
  decide
theorem test_daa_sub :
    (run [0x27] (acc 0xFA 0b0110 0)).a = 0xF4 ∧ znhc (run [0x27] (acc 0xFA 0b0110 0)) = 0b0100 := by decide
theorem test_cpl : (run [0x2F] (acc 0xFF 0b1001 0)).a = 0x00 ∧ znhc (run [0x2F] (acc 0xFF 0b1001 0)) = 0b1111 := by
  decide
theorem test_scf : znhc (run [0x37] (acc 0 0b1110 0)) = 0b1001 := by decide
theorem test_ccf : znhc (run [0x3F] (acc 0 0b1111 0)) = 0b1000 := by decide

/-! ## 16-bit arithmetic (V2.3) -/

theorem test_inc_rp : (run [0x33] { State.reset with sp := 0xFFFF }).sp = 0x0000 := by decide
theorem test_dec_rp : (run [0x0B] { State.reset with b := 0, c := 0 }).bc = 0xFFFF := by decide
theorem test_add_hl_bc :
    let t := run [0x09] { State.reset.setHl 0x8A23 with f := flags 0, b := 0x06, c := 0x05 }
    t.hl = 0x9028 ∧ znhc t = 0b0010 := by decide
theorem test_add_hl_hl :
    let t := run [0x29] { State.reset.setHl 0x8800 with f := flags 0 }
    t.hl = 0x1000 ∧ znhc t = 0b0011 := by decide
theorem test_add_sp_e :
    let t := run [0xE8, 0xFF] { State.reset with sp := 0x0001, f := flags 15 }
    t.sp = 0x0000 ∧ znhc t = 0b0011 ∧ t.cyc = 4 := by decide
theorem test_ld_hl_sp_e :
    let t := run [0xF8, 0x80] { State.reset with sp := 0x0080, f := flags 15 }
    t.hl = 0x0000 ∧ znhc t = 0b0001 ∧ t.sp = 0x0080 := by decide

/-! ## Rotates, shifts and bits (V2.4, V2.5): the rows v = 0x85, C = 1 and v = 0x00 -/

theorem test_acc_rotates :
    (run [0x07] (acc 0x85 1 0)).a = 0x0B ∧ (run [0x0F] (acc 0x85 1 0)).a = 0xC2 ∧
    (run [0x17] (acc 0x85 0 0)).a = 0x0A ∧ (run [0x1F] (acc 0x85 0 0)).a = 0x42 := by decide
theorem test_acc_rotates_clear_z :
    znhc (run [0x07] (acc 0x00 8 0)) = 0 ∧ znhc (run [0x0F] (acc 0x00 8 0)) = 0 ∧
    znhc (run [0x17] (acc 0x80 0 0)) = 1 ∧ znhc (run [0x1F] (acc 0x01 0 0)) = 1 := by decide
theorem test_cb_rotates :
    (run [0xCB, 0x00] (acc 0 1 0x85)).b = 0x0B ∧ (run [0xCB, 0x08] (acc 0 1 0x85)).b = 0xC2 ∧
    (run [0xCB, 0x10] (acc 0 0 0x85)).b = 0x0A ∧ (run [0xCB, 0x18] (acc 0 0 0x85)).b = 0x42 ∧
    (run [0xCB, 0x20] (acc 0 1 0x85)).b = 0x0A ∧ (run [0xCB, 0x28] (acc 0 1 0x85)).b = 0xC2 ∧
    (run [0xCB, 0x30] (acc 0 1 0x85)).b = 0x58 ∧ (run [0xCB, 0x38] (acc 0 1 0x85)).b = 0x42 := by decide
theorem test_cb_rotates_set_z :
    znhc (run [0xCB, 0x10] (acc 0 0 0x80)) = 0b1001 ∧ znhc (run [0xCB, 0x18] (acc 0 0 0x01)) = 0b1001 ∧
    znhc (run [0xCB, 0x30] (acc 0 1 0xF0)) = 0b0000 := by decide
theorem test_cb_rotates_hl :
    let s : State := { atHl 0xC000 0x85 with f := flags 1 }
    (run [0xCB, 0x06] s).peek 0xC000 = some 0x0B ∧ (run [0xCB, 0x0E] s).peek 0xC000 = some 0xC2 ∧
    (run [0xCB, 0x16] s).peek 0xC000 = some 0x0B ∧ (run [0xCB, 0x1E] s).peek 0xC000 = some 0xC2 ∧
    (run [0xCB, 0x26] s).peek 0xC000 = some 0x0A ∧ (run [0xCB, 0x2E] s).peek 0xC000 = some 0xC2 ∧
    (run [0xCB, 0x36] s).peek 0xC000 = some 0x58 ∧ (run [0xCB, 0x3E] s).peek 0xC000 = some 0x42 := by
  decide
theorem test_bit_r : znhc (run [0xCB, 0x47] (acc 0x80 1 0)) = 0b1011 := by decide
theorem test_bit_hl_unmapped :
    let t := run [0xCB, 0x46] (State.reset.setHl 0x8000)
    t.fault = some (.unmappedAddress 0x8000 .read) ∧ t.pc = 0x0102 ∧ t.cyc = 0 ∧ znhc t = 0b1011 := by decide
theorem test_bit_hl : (run [0xCB, 0x46] (atHl 0xC000 0xFE)).f.z = true := by decide
theorem test_res_r : (run [0xCB, 0xBF] (acc 0xFF 5 0)).a = 0x7F ∧ znhc (run [0xCB, 0xBF] (acc 0xFF 5 0)) = 5 := by
  decide
theorem test_res_hl :
    let t := run [0xCB, 0x9E] (atHl 0xC000 0xFF)
    t.peek 0xC000 = some 0xF7 ∧ t.cyc = 4 := by decide
theorem test_set_r : (run [0xCB, 0xDF] (acc 0x80 0 0)).a = 0x88 := by decide
theorem test_set_hl : (run [0xCB, 0xFE] (atHl 0xC000 0x00)).peek 0xC000 = some 0x80 := by decide

/-! ## Control transfer (V2.7) -/

theorem test_jp : (run [0xC3, 0x50, 0x01] State.reset).pc = 0x0150 := by decide
theorem test_jp_z :
    (run [0xCA, 0x00, 0x02] (acc 0 8 0)).pc = 0x0200 ∧ (run [0xCA, 0x00, 0x02] (acc 0 0 0)).cyc = 3 := by decide
theorem test_jp_hl : (run [0xE9] (State.reset.setHl 0xC000)).pc = 0xC000 := by decide
theorem test_jr : (run [0x18, 0x80] State.reset).pc = 0x0082 ∧ (run [0x18, 0x7F] State.reset).pc = 0x0181 := by
  decide
theorem test_jr_nz :
    (run [0x20, 0xFB] { acc 0 0 0 with pc := 0x0105 }).pc = 0x0102 ∧
    (run [0x20, 0xFB] { acc 0 8 0 with pc := 0x0105 }).pc = 0x0107 := by decide
theorem test_call :
    let t := run [0xCD, 0x00, 0x20] { State.reset with pc := 0x0150 }
    t.peek 0xFFFD = some 0x01 ∧ t.peek 0xFFFC = some 0x53 ∧ t.pc = 0x2000 ∧ t.cyc = 6 := by decide
theorem test_call_c_not_taken :
    let t := run [0xDC, 0x00, 0x20] { acc 0 0 0 with pc := 0x0150 }
    t.pc = 0x0153 ∧ t.sp = 0xFFFE ∧ t.cyc = 3 := by decide
theorem test_ret :
    let t := run [0xC9] (({ State.reset with sp := 0xFFFC }.poke 0xFFFC 0x53).poke 0xFFFD 0x01)
    t.pc = 0x0153 ∧ t.sp = 0xFFFE ∧ t.cyc = 4 ∧ t.ime = false := by decide
theorem test_reti :
    let t := run [0xD9] (({ State.reset with sp := 0xFFFC }.poke 0xFFFC 0x53).poke 0xFFFD 0x01)
    t.pc = 0x0153 ∧ t.ime = true := by decide
theorem test_ret_nz :
    (run [0xC0] { acc 0 0 0 with sp := 0xFFFC }).cyc = 5 ∧ (run [0xC0] (acc 0 8 0)).cyc = 2 := by decide
theorem test_rst :
    let t := run [0xEF] { State.reset with pc := 0x0150 }
    t.pc = 0x0028 ∧ t.peek 0xFFFC = some 0x51 ∧ t.cyc = 4 := by decide

/-! ## System instructions, the step and interrupts (V2.8, V2.9, S10) -/

theorem test_nop : run [0x00] State.reset = { code [0x00] State.reset with pc := 0x0101, cyc := 1 } := by decide
theorem test_halt : (run [0x76] State.reset).halted = true := by decide
theorem test_halt_idles :
    let s : State := { State.reset with halted := true, ie := 0x02, ifl := 0x02 }
    after s = { s with cyc := 1 } := by decide
theorem test_halt_wakes_without_ime :
    let t := run [0x04] { State.reset with halted := true, ie := 0x04, ifl := 0x04 }
    t.halted = false ∧ t.b = 0x01 ∧ t.ifl = 0x04 := by decide
theorem test_stop :
    let t := run [0x10, 0x00] { State.reset with pc := 0x0300 }
    t.pc = 0x0302 ∧ t.stopped = true ∧ t.cyc = 1 ∧ after t = t := by decide
theorem test_di : (run [0xF3] { State.reset with ime := true }).ime = false := by decide
theorem test_ei : (run [0xFB] State.reset).ime = true := by decide
theorem test_illegal :
    let t := run [0xDD] State.reset
    t.pc = 0x0101 ∧ t.fault = some (.illegalOpcode 0xDD) ∧ t.cyc = 0 ∧ after t = t := by decide
theorem test_illegal_rows :
    ∀ row ∈ undefinedRows, (run [row.1] State.reset).fault = some (.illegalOpcode row.1) := by decide
theorem test_prefix_fetch_unmapped :
    let t := run [0xCB] { State.reset with pc := 0x7FFF }
    t.pc = 0x8000 ∧ t.fault = some (.unmappedAddress 0x8000 .read) := by decide
theorem test_fetch_unmapped :
    let t := after { State.reset with pc := 0x8000 }
    t.pc = 0x8000 ∧ t.fault = some (.unmappedAddress 0x8000 .read) ∧ t.cyc = 0 := by decide
theorem test_interrupt_service :
    let t := after { State.reset with pc := 0x0150, ime := true, ie := 0x01, ifl := 0x0D }
    t.ime = false ∧ t.ifl = 0x0C ∧ t.ie = 0x01 ∧ t.pc = 0x0040 ∧ t.sp = 0xFFFC ∧
    t.peek 0xFFFD = some 0x01 ∧ t.peek 0xFFFC = some 0x50 ∧ t.cyc = 5 ∧ t.lock = none := by decide
theorem test_interrupt_stack_unmapped :
    let t := after { State.reset with sp := 0xFF80, ime := true, ie := 0x01, ifl := 0x01 }
    t.ime = false ∧ t.ifl = 0x00 ∧ t.sp = 0xFF7F ∧ t.pc = 0x0100 ∧ t.cyc = 0 ∧ t.lock = some .cpu ∧
    t.fault = some (.unmappedAddress 0xFF7F .write) := by decide
theorem test_get_top :
    let top := fun (gap : Bool) (e f : Byte) =>
      { State.reset with ie := e, ifl := f, cfg := { Config.default with lcdStatScanned := gap } }.getTop true
    top false 0x1E 0x1F = some .timer ∧ top true 0x1E 0x1F = some .lcdStat ∧ top false 0x02 0x02 = none ∧
    top false 0x1A 0x1C = some .serial ∧ top false 0xE0 0xE0 = none ∧ top false 0x05 0x05 = some .vblank := by
  decide

/-! ## Environment: requests, lock, registration, queue (V2.9, V2.10, V2.11) -/

/-- The state after one move of the environment. -/
def moved (m : Move) (s : State) : State := after { s with inputs := [m] }

theorem test_set_flag : (moved (.setFlag 2) State.reset).ifl = 0x04 := by decide
theorem test_clear_flag :
    (moved (.clearFlag 2) { State.reset with ifl := 0x1F }).ifl = 0x1B ∧
    (moved (.setFlag 5) State.reset).ifl = 0x00 := by decide
theorem test_lock :
    (moved (.lock 7) State.reset).lock = some (.dev 7) ∧
    (moved (.lock 9) { State.reset with lock := some (.dev 7) }).lock = some (.dev 7) ∧
    (moved (.unlock 9) { State.reset with lock := some (.dev 7) }).lock = some (.dev 7) ∧
    (moved (.unlock 7) { State.reset with lock := some (.dev 7) }).lock = none := by decide
theorem test_lock_stalls_cpu :
    after { State.reset with lock := some (.dev 9) } = { State.reset with lock := some (.dev 9) } := by decide

/-- The numeric codes of R420 and the constraints R7 puts on the default parameters. -/
theorem test_fault_codes_and_parameters :
    ([.unmappedAddress 0 .read, .capacityExceeded .bus, .emptyContainer .pop, .invalidOperand 8,
      .illegalOpcode 0xD3, .illegalSource 5, .addressMismatch 0, .deviceFailure 0] :
      List Fault).map Fault.code = [1, 2, 3, 4, 5, 6, 7, 8] ∧ Config.default.wf = true := by decide

/-- The overlapping connections of V2.10. -/
def overlapX : Connection := ⟨0x4000, 0x7FFF, .device 0, .ram⟩
def overlapY : Connection := ⟨0x6000, 0x9FFF, .device 1, .ram⟩

theorem test_decode_order :
    decodeAddr [overlapX, overlapY] 0x7FFF = some overlapX ∧
    decodeAddr [overlapX, overlapY] 0x8000 = some overlapY ∧
    decodeAddr [overlapX, overlapY] 0xA000 = none ∧
    decodeAddr [overlapY, overlapX] 0x6000 = some overlapY := by decide
theorem test_register_full :
    let s := boot .default { Platform.default with
      cfg := { Config.default with nDev := 2 }, map := [overlapX, overlapY, overlapX] }
    s.fault = some (.capacityExceeded .bus) ∧ s.bus = [overlapX, overlapY] := by decide
theorem test_boot_default : boot .default Platform.default = State.reset := by decide

/-- RESET is a parameter (R7, R41). -/
theorem test_boot_other_reset :
    (boot { ResetValues.default with pc := 0x0150, sp := 0xDFFF } Platform.default).pc = 0x0150 := by decide

/-- A device of a platform's own: reads give its state and add one to it, writes fail and double it. -/
def counter : DeviceProgram :=
  { read := { fails := .const 0, value := .state, next := .op .add .state (.const 1) }
    write := { fails := .const 1, value := .const 0, next := .op .mul .state (.const 2) } }

/-- The reset state with that device at 0x9000, in state 7. -/
def withCounter : State :=
  { State.reset with bus := defaultMap ++ [⟨0x9000, 0x9000, .device 3, .program counter⟩], devices := [(7, 7)] }

/-- The read's side effect is the device's own (R72); the write fails and keeps its effect (R71). -/
theorem test_device_program :
    let t := run [0x7E] (withCounter.setHl 0x9000)
    let u := run [0x77] (withCounter.setHl 0x9000)
    t.a = 7 ∧ t.devices = [(7, 8)] ∧ t.fault = none ∧
    u.devices = [(7, 14)] ∧ u.fault = some (.deviceFailure 0x9000) := by decide

/-- An entry point that fails at 0x9001 alone and looks its byte up by the full address (R62, R71). -/
def fussy : EntryPoint :=
  { fails := .op .lt (.const 0x9000) .addr, value := .lookup [0x11, 0x22] (.op .sub .addr (.const 0x9000)),
    next := .state }

theorem test_device_fails_at_one_address :
    fussy.failing 0 0x9000 0x00 = false ∧ fussy.reply 0 0x9000 0x00 = 0x11 ∧
    fussy.failing 0 0x9001 0x00 = true := by decide

/-- Pending moves come before CPU steps, free moves after them whatever they are (R14). -/
theorem test_moves_in_order :
    let s := { State.reset with inputs := [.setFlag 0, .clearFlag 0], freeRun := some 2 }
    (after s).ifl = 0x01 ∧ (after s).pc = 0x0100 ∧ (after (after s)).ifl = 0x00 ∧
    step (after (after s)) = runMove (Config.freeMove 2 0) { after (after s) with turn := 1 } :=
  ⟨rfl, rfl, rfl, rfl⟩

theorem test_queue_push_pop :
    Queue.push Event.lower 8 ⟨30, 5⟩ [⟨10, 4⟩, ⟨20, 2⟩, ⟨40, 3⟩, ⟨50, 1⟩] =
      .ok [⟨10, 4⟩, ⟨20, 2⟩, ⟨40, 3⟩, ⟨50, 1⟩, ⟨30, 5⟩] ∧
    executeNext [⟨10, 4⟩, ⟨20, 2⟩, ⟨40, 3⟩, ⟨50, 1⟩, ⟨30, 5⟩] =
      .ok (⟨10, 4⟩, [⟨20, 2⟩, ⟨30, 5⟩, ⟨40, 3⟩, ⟨50, 1⟩]) := ⟨rfl, rfl⟩
theorem test_schedule_rebases :
    let p := { Config.default with tsWrap := 1000, pqCap := 4 }
    schedule p ⟨1200, 3⟩ [⟨900, 1⟩, ⟨950, 2⟩] = .ok [⟨0, 1⟩, ⟨50, 2⟩, ⟨300, 3⟩] ∧
    schedule p ⟨1500, 2⟩ [⟨2000, 1⟩] = .ok [⟨0, 2⟩, ⟨500, 1⟩] := ⟨rfl, rfl⟩
theorem test_queue_full_and_empty :
    Queue.push Event.lower 2 ⟨1, 0⟩ [⟨3, 1⟩, ⟨5, 0⟩] = .error (.capacityExceeded .queue) ∧
    executeNext [] = .error (.emptyContainer .pop) ∧
    Queue.front ([] : List Event) = .error (.emptyContainer .front) := ⟨rfl, rfl, rfl⟩

/-! ## Witnesses: for each statement with hypotheses, values that meet them (boundary values of its clauses) -/

/-- A platform's map: the counter at 0x9000, a failing device at 0xA000, an auto-clearing register at 0xB000, plain storage at
0xC000, and nothing at 0xD000. -/
def platform : List Connection :=
  [⟨0x0000, 0x7FFF, .cart, .rom⟩, ⟨0x9000, 0x9000, .device 3, .program counter⟩, ⟨0xA000, 0xA000, .device 1, .failing⟩,
   ⟨0xB000, 0xB000, .device 2, .clearOnRead⟩, ⟨0xC000, 0xCFFF, .wram, .ram⟩]

/-- The reset state on that map, with BC, DE, HL and SP at `a`. -/
def at4 (a : Word) : State :=
  { ((State.reset.setBc a).setDe a).setHl a with bus := platform, sp := a, mem := [(0x10000, 0x42)] }

/-- The three ways a read at the pair registers' or SP's address ends: unmapped, raised, completed. -/
def readEnds : Prop :=
  decodeAddr (at4 0xD000).bus (at4 0xD000).hl = none ∧
  busRead (at4 0xA000).hl (at4 0xA000) = .raised ((at4 0xA000).latched (.deviceFailure 0xA000)) ∧
  busRead (at4 0xC000).hl (at4 0xC000) = .ok 0x42 (at4 0xC000) ∧
  (at4 0xC000).bc = 0xC000 ∧ (at4 0xC000).de = 0xC000 ∧ (at4 0xC000).hl = 0xC000 ∧ (at4 0xC000).sp = 0xC000

/-- The three ways a write there ends. -/
def writeEnds : Prop :=
  decodeAddr (at4 0xD000).bus (at4 0xD000).hl = none ∧
  busWrite (at4 0xA000).hl 0x99 (at4 0xA000) = .raised ((at4 0xA000).latched (.deviceFailure 0xA000)) ∧
  busWrite (at4 0xC000).hl 0x99 (at4 0xC000) = .ok () { at4 0xC000 with mem := [(0x10000, 0x99)] }

/-- A state about to run the opcode `op` at 0x0100. -/
def aboutTo (op : Byte) : State := code [op] State.reset

theorem test_witness_DecodeOfEncode :
    (Instr.setBHl 7).wf = true ∧ Instr.setBHl 7 ≠ .prefixCb ∧ (Instr.rstT 7).wf = true ∧
    Instr.prefixCb.wf = true := by decide

theorem test_witness_EncodeOfDecode :
    decode [0xCB, 0xFE, 0x00] = .ok (.setBHl 7, [0x00]) ∧ decode [0x10, 0xFF] = .ok (.stop 0xFF, []) :=
  ⟨rfl, rfl⟩

theorem test_witness_DecodingIsTotal :
    (0xD3, Instr.illegalD3) ∈ undefinedRows ∧ (0xFD, Instr.illegalFD) ∈ undefinedRows ∧
    decode [0xFD, 0x01] = .ok (.illegalFD, [0x01]) := ⟨by decide, by decide, rfl⟩

theorem test_witness_BusOperations :
    decodeAddr State.reset.bus 0x8000 = none ∧
    decodeAddr State.reset.bus 0x7FFF = some ⟨0x0000, 0x7FFF, .cart, .rom⟩ := by decide

theorem test_witness_DeviceEntryPoints :
    decodeAddr (at4 0).bus 0x9000 = some ⟨0x9000, 0x9000, .device 3, .program counter⟩ ∧
    Owner.device 2 ≠ .device 3 ∧ (at4 0).devices.wf = true ∧ (0 : Nat) < 1 ∧
    decodeAddr (at4 0).bus 0xA000 = some ⟨0xA000, 0xA000, .device 1, .failing⟩ ∧
    decodeAddr (at4 0).bus 0xB000 = some ⟨0xB000, 0xB000, .device 2, .clearOnRead⟩ ∧
    decodeAddr (at4 0).bus 0xCFFF = some ⟨0xC000, 0xCFFF, .wram, .ram⟩ ∧
    busRead 0xCFFF (at4 0) = .ok 0x00 (at4 0) := by decide

theorem test_witness_DefaultMemoryDevices :
    State.reset.bus = defaultMap ∧ 8191 < 8192 ∧ 0x1DFF ≤ 0x1DFF ∧ (0xDE00 : Word) ≤ 0xDFFF ∧
    State.reset.placeOf 0xDFFF = some (.cell 0x11FFF) ∧ State.reset.mem.wf = true ∧
    (0x7FFF : Word) ≤ 0x7FFF ∧ 126 < 127 := by decide

theorem test_witness_DefaultMapHoles :
    State.reset.bus = defaultMap ∧
    [0x8000, 0xBFFF, 0xFE00, 0xFF0E, 0xFF10, 0xFF7F].all
      (fun a => (decodeAddr defaultMap a).isNone) = true ∧
    [0x7FFF, 0xC000, 0xFDFF, 0xFF0F, 0xFF80, 0xFFFF].all
      (fun a => (decodeAddr defaultMap a).isSome) = true := ⟨rfl, rfl, rfl⟩

theorem test_witness_InterruptRegistersOnBus :
    decodeAddr defaultMap 0xFF0F = some ⟨0xFF0F, 0xFF0F, .intc, .ifReg⟩ ∧
    decodeAddr defaultMap 0xFFFF = some ⟨0xFFFF, 0xFFFF, .intc, .ieReg⟩ ∧ (0xFF0E : Word) ≠ 0xFF0F := by decide

theorem test_witness_BusWriteFrame :
    let s := at4 0xC000
    busWrite 0xC000 0x99 s = .ok () { s with mem := [(0x10000, 0x99)] } ∧ s.mem.wf = true ∧
    s.placeOf 0xC001 ≠ s.placeOf 0xC000 ∧ State.reset.placeOf 0xE000 = State.reset.placeOf 0xC000 ∧
    decodeAddr s.bus 0xC000 = some ⟨0xC000, 0xCFFF, .wram, .ram⟩ := by decide

theorem test_witness_LockProtocol :
    State.reset.lock = none ∧ ¬ (some (Master.dev 8) = none ∨ some (Master.dev 8) = some (.dev 7)) ∧
    busRead 0xC000 State.reset = .ok 0x00 State.reset ∧
    busWrite 0xC000 0x00 State.reset = .ok () State.reset ∧
    busRead 0x8000 State.reset = .raised (State.reset.latched (.unmappedAddress 0x8000 .read)) ∧
    busWrite 0x8000 0x00 State.reset = .raised (State.reset.latched (.unmappedAddress 0x8000 .write)) := by
  decide

theorem test_witness_BootWiring :
    State.reset.bus.length < State.reset.cfg.nDev ∧ Platform.default.map.length ≤ Platform.default.cfg.nDev ∧
    5 < defaultMap.length ∧
    State.reset.cfg.nDev ≤ (List.replicate 16 overlapX).length ∧ ∃ t, step State.reset = .next t :=
  ⟨by decide, by decide, by decide, by decide, _, rfl⟩

theorem test_witness_ResetValues : Platform.default.inputs = [] ∧ Platform.default.freeRun = none := by decide

theorem test_witness_RegisterAndFlagFrame :
    Instr.incHl ≠ .prefixCb ∧ (∃ t, exec .incHl (at4 0xC000) = .next t) ∧ Reg8.h ∉ Instr.incHl.destRegs ∧
    Instr.incHl.writesSp = false ∧ Instr.incHl.writesPc = false ∧ Instr.incHl.writesFlag.c = false ∧
    Instr.ccf.writesFlag.z = false ∧ Instr.daa.writesFlag.n = false ∧ Instr.nop.writesFlag.h = false :=
  ⟨by decide, ⟨_, rfl⟩, by decide, by decide, by decide, by decide, by decide, by decide, by decide⟩

theorem test_witness_MemoryFrame :
    (∃ t, exec .incHl (at4 0xC000) = .next t) ∧
    Instr.incHl.stores (at4 0xC000) = [0xC000] ∧ Instr.incHl.loads (at4 0xC000) = [0xC000] ∧
    (at4 0xC000).quietAt 0xC000 = true ∧ (at4 0xC000).placeOf 0xC000 = some (.cell 0x10000) ∧
    (at4 0xC000).placeOf 0xC001 = some (.cell 0x10001) ∧ (at4 0xC000).quietAt 0x9000 = false ∧
    (at4 0xC000).placeOf 0x9000 = some (.device (.device 3)) :=
  ⟨⟨_, rfl⟩, by decide, by decide, by decide, by decide, by decide, by decide, by decide⟩

theorem test_witness_ControlStateFrame :
    (∃ t, exec .nop State.reset = .next t) ∧ Instr.nop ≠ .di ∧ Instr.nop ≠ .ei ∧ Instr.nop ≠ .reti ∧
    Instr.nop ≠ .halt ∧ ∀ pad, Instr.nop ≠ .stop pad :=
  ⟨⟨_, rfl⟩, by decide, by decide, by decide, by decide, by simp⟩

theorem test_witness_StepRunsDecodedInstruction :
    let s := code [0xC3, 0x50, 0x01] State.reset
    s.dispatches ∧ decode [0xC3, 0x50, 0x01] = .ok (.jpA16 0x0150, []) ∧ s.holds s.pc [0xC3, 0x50, 0x01] :=
  ⟨by decide, rfl, by decide, by decide, by decide, trivial⟩

theorem test_witness_PrefixRunsSecondTable :
    decodeAddr (at4 0).bus 0x8000 = none ∧ (aboutTo 0xCB).dispatches ∧ (aboutTo 0xCB).reads 0x0100 0xCB ∧
    immediateCount 0xCB = 0 ∧ busRead 0x0100 (aboutTo 0xCB) = .ok 0xCB (aboutTo 0xCB) ∧
    busRead 0xA000 (at4 0) = .raised ((at4 0).latched (.deviceFailure 0xA000)) := by decide

theorem test_witness_FetchFaults :
    let s := { at4 0 with pc := 0x8000 }
    let u := code [0x3E] { at4 0 with pc := 0x7FFF }
    decodeAddr s.bus s.pc = none ∧ s.dispatches ∧ u.dispatches ∧ u.reads u.pc 0x3E ∧
    immediateCount 0x3E ≠ 0 ∧ decodeAddr u.bus (u.pc + 1) = none := by decide

theorem test_witness_InterruptEntry :
    let s := { State.reset with ime := true, ie := 0x10, ifl := 0x10 }
    s.active ∧ s.getTop s.ime = some .joypad := by decide

theorem test_witness_PriorityEncoderAndVectors : (4 : Nat) < 5 ∧ (5 : Nat) ≤ 5 := by decide

theorem test_witness_RequestPort : (4 : Nat) < 5 ∧ (5 : Nat) ≤ 5 ∧ (7 : Nat) < 8 := by decide

theorem test_witness_HaltedCpu :
    let s := { State.reset with halted := true }
    s.active ∧ s.halted = true ∧ s.ie &&& s.ifl &&& 0b00011101 = 0 ∧
    (State.active { s with ie := 0x10, ifl := 0x10 } ∧
      State.pending { s with ie := 0x10, ifl := 0x10 } ≠ 0) := by decide

/-- A run from a reset state whose CPU is stopped: one request, then the same request for ever. -/
def stoppedRun : Nat → State
  | 0 => boot { ResetValues.default with stopped := true } Platform.default
  | _ + 1 => { boot { ResetValues.default with stopped := true } Platform.default with
      ifl := 0x01, reply := some .done }

/-- A run from a reset state that a fault keeps. -/
def faultedRun : Nat → State :=
  fun _ => boot { ResetValues.default with fault := some (.illegalOpcode 0xDD) } Platform.default

theorem test_witness_NoStepOnceOver :
    (State.latched State.reset (.illegalOpcode 0xDD)).fault ≠ none ∧
    ({ State.reset with stopped := true }).stopped = true ∧ State.reset.inputs = [] ∧
    State.reset.freeRun = none ∧ IsRun (fun _ => .setFlag 0) stoppedRun ∧ (stoppedRun 1).stopped = true ∧
    IsRun (fun _ => .cpuStep) faultedRun ∧ (faultedRun 0).fault ≠ none :=
  ⟨by decide, by decide, by decide, by decide,
    ⟨⟨{ ResetValues.default with stopped := true }, Platform.default, rfl⟩, fun n => by
      cases n
      · exact (if_pos (rfl : (stoppedRun 0).fault = none)).mpr rfl
      · exact (if_pos (rfl : (stoppedRun 1).fault = none)).mpr <| congrArg Host.Outcome.next
          (by decide : ({ (stoppedRun 1).setFlag 0 with reply := some .done } : State) = stoppedRun 1)⟩,
    by decide,
    ⟨⟨{ ResetValues.default with fault := some (.illegalOpcode 0xDD) }, Platform.default, rfl⟩, fun _ =>
      (if_neg (by decide : (faultedRun 0).fault ≠ none)).mpr rfl⟩, by decide⟩

theorem test_witness_EnvironmentMoves :
    State.reset.fault = none ∧ State.reset.inputs = [] ∧ State.reset.freeRun = none ∧
    Move.setFlag 0 ≠ .cpuStep ∧ ({ State.reset with inputs := [.setFlag 0] }).inputs = [Move.setFlag 0] ∧
    ({ State.reset with freeRun := some 0 }).freeRun = some 0 := by decide

theorem test_witness_CpuStepFrame :
    State.reset.fault = none ∧ State.reset.stopped = false ∧ State.reset.lock = none ∧ (8 : Nat) ≤ 8 ∧
    (after State.reset).fault = none ∧ (after { State.reset with pc := 0x8000 }).fault ≠ none := by decide

theorem test_witness_StepKeepsCanonicalStorage :
    (at4 0xC000).canonical ∧ withCounter.canonical ∧ ∃ t, step (at4 0xC000) = .next t :=
  ⟨by decide, by decide, _, rfl⟩

theorem test_witness_StepKeepsQueueHeap :
    let s := { State.reset with queue := [⟨10, 1⟩, ⟨20, 2⟩], inputs := [.schedule ⟨5, 3⟩] }
    s.queueOk ∧ (∃ t, step s = .next t) ∧ s.queue.head? = some ⟨10, 1⟩ ∧ (⟨20, 2⟩ : Event) ∈ s.queue :=
  ⟨⟨by decide, by decide⟩, ⟨_, rfl⟩, by decide, by decide⟩

theorem test_witness_StepKeepsCpuLockFree :
    let s := { State.reset with ime := true, ie := 0x01, ifl := 0x01 }
    s.lockOk ∧ ∃ t, step s = .next t :=
  ⟨by simp [State.lockOk, State.reset, State.resetWith, ResetValues.default], _, rfl⟩

theorem test_witness_ResetMeetsInvariants :
    Memory.wf [(0x10000, 0x42)] = true ∧ DeviceStates.wf [(4, 1), (7, 300)] = true ∧
    ResetValues.default.queue = [] ∧ ResetValues.default.lock = none := by decide

theorem test_witness_RomNeverChanges :
    let s := code [0x77] (State.reset.setHl 0x7FFF)
    s.bus = defaultMap ∧ (∃ t, step s = .next t) ∧ 32767 < 32768 := ⟨by decide, ⟨_, rfl⟩, by decide⟩

theorem test_witness_QueueTests :
    ({ State.reset with queue := [⟨1, 0⟩] }).queue = (⟨1, 0⟩ : Event) :: [] ∧ State.reset.queue = [] := by
  decide

/-- The comparator of R371's example and a queue it keeps. -/
theorem test_witness_QueuePush :
    [7, 9].length = 2 ∧ [7, 9].length ≠ 3 ∧ StrictWeak (fun x y : Nat => decide (y < x)) ∧
    Queue.heapOrdered (fun x y : Nat => decide (y < x)) [7, 9] = true := by
  refine ⟨by decide, by decide, ⟨?_, ?_, ?_⟩, by decide⟩ <;> simp <;> omega

theorem test_witness_QueuePop :
    StrictWeak (fun x y : Nat => decide (y < x)) ∧
    Queue.heapOrdered (fun x y : Nat => decide (y < x)) [7, 9, 8] = true := by
  refine ⟨⟨?_, ?_, ?_⟩, by decide⟩ <;> simp <;> omega

theorem test_witness_RebaseKeepsDifferences :
    (⟨1000, 0⟩ : Event).timestamp.toNat ≤ 1000 ∧ 1000 < (⟨1001, 0⟩ : Event).timestamp.toNat ∧
    Queue.heapOrdered Event.lower [⟨900, 1⟩, ⟨950, 2⟩] = true := by decide

theorem test_witness_SchedulerPort :
    let s := { State.reset with queue := [⟨1, 0⟩], cfg := { Config.default with pqCap := 1 } }
    s.queue.length = s.cfg.pqCap ∧ State.reset.queue.length ≠ State.reset.cfg.pqCap ∧
    State.reset.queue = [] ∧ s.queue = ⟨1, 0⟩ :: [] := by decide

theorem test_witness_EventsLeaveInOrder :
    let es : List Event := [⟨50, 1⟩, ⟨20, 2⟩, ⟨40, 3⟩]
    Queue.heapOrdered Event.lower [⟨20, 2⟩, ⟨50, 1⟩, ⟨40, 3⟩] = true ∧ es.length ≤ Config.default.pqCap ∧
    es.Pairwise (fun x y => x.timestamp ≠ y.timestamp) ∧
    ∀ e ∈ es, e.timestamp.toNat ≤ Config.default.tsWrap := by decide

theorem test_witness_LoadsFromMemory : readEnds := by unfold readEnds; decide

theorem test_witness_StoresToMemory : writeEnds := by unfold writeEnds; decide

/-- A push below 0xC002 and a pop from 0xC000 complete; at 0xD001 and 0xD000 they fault. -/
theorem test_witness_StackInstructions :
    readEnds ∧ writeEnds ∧ (∃ t, push16 0x1234 (at4 0xC002) = .ok () t) ∧
    (∃ v t, pop16 (at4 0xC000) = .ok v t) ∧ decodeAddr (at4 0xD001).bus ((at4 0xD001).sp - 1) = none :=
  ⟨by unfold readEnds; decide, by unfold writeEnds; decide, ⟨_, rfl⟩, ⟨_, _, rfl⟩, by decide⟩

theorem test_witness_PushPopRoundTrip :
    let s := { State.reset with sp := 0xC002 }
    s.mem.wf = true ∧ (0x10001 : Nat) ≠ 0x10000 ∧ (7 : Nat) < 8 ∧ s.cond .z = true ∧
    (∃ c, decodeAddr s.bus (s.sp - 1) = some c ∧ c.port = .ram ∧ c.place (s.sp - 1) = .ok (.cell 0x10001)) ∧
    (∃ c, decodeAddr s.bus (s.sp - 2) = some c ∧ c.port = .ram ∧ c.place (s.sp - 2) = .ok (.cell 0x10000)) :=
  ⟨by decide, by decide, by decide, by decide, ⟨_, rfl, rfl, rfl⟩, ⟨_, rfl, rfl, rfl⟩⟩

theorem test_witness_AddAndAdc : readEnds := by unfold readEnds; decide
theorem test_witness_SubSbcAndCompare : readEnds := by unfold readEnds; decide
theorem test_witness_LogicOperations : readEnds := by unfold readEnds; decide
theorem test_witness_IncrementAndDecrement : readEnds ∧ writeEnds := by unfold readEnds writeEnds; decide
theorem test_witness_SecondaryRotatesOnMemory : readEnds ∧ writeEnds := by unfold readEnds writeEnds; decide

theorem test_witness_DecimalArithmetic :
    (99 : Nat) < 100 ∧ ({ State.reset with a := 0x99 }).a = bcd 99 ∧ State.reset.a = bcd 1 ∧
    State.reset.reg .c = bcd 13 ∧ busRead (atHl 0xC000 0x42).hl (atHl 0xC000 0x42) =
      .ok (bcd 42) (atHl 0xC000 0x42) := by decide

theorem test_witness_BitResetAndSet : (0 : Nat) < 8 ∧ (7 : Nat) < 8 ∧ readEnds ∧ writeEnds := by
  unfold readEnds writeEnds; decide

theorem test_witness_Jumps :
    State.reset.f.z = true ∧ State.reset.f.c = true ∧ (acc 0 0 0).f.z = false ∧ (acc 0 0 0).f.c = false := by
  decide

theorem test_witness_CallsAndReturns :
    State.reset.cond .z = true ∧ State.reset.cond .nz = false ∧ (7 : Nat) < 8 ∧ readEnds ∧ writeEnds ∧
    (∃ t, push16 0x1234 (at4 0xC002) = .ok () t) ∧ (∃ v t, pop16 (at4 0xC000) = .ok v t) :=
  ⟨by decide, by decide, by decide, by unfold readEnds; decide, by unfold writeEnds; decide,
    ⟨_, rfl⟩, ⟨_, _, rfl⟩⟩

theorem test_witness_IllegalOpcodes :
    (0xD3, Instr.illegalD3) ∈ undefinedRows ∧ (aboutTo 0xD3).dispatches ∧
    (aboutTo 0xD3).reads (aboutTo 0xD3).pc 0xD3 := by decide

end Sys2Proof.Tests
end

section
/-! PROOF. What an operation may write of the registers, the flags and the two pointers: a footprint, what each
shared operation needs of it, and `RegisterAndFlagFrame` (00_scope.md R13, 10_state.md R23 to R28). -/

namespace Sys2Proof.Machine

/-- The 8-bit registers, the pointers and the flags an operation may write. -/
structure Footprint where
  regs : List Reg8
  sp : Bool
  pc : Bool
  flags : Flags

/-- `g` is `f` but for the flags the mask marks. -/
structure Flags.Within (mask f g : Flags) : Prop where
  z : mask.z = false → g.z = f.z
  n : mask.n = false → g.n = f.n
  h : mask.h = false → g.h = f.h
  c : mask.c = false → g.c = f.c

/-- `t` is `s` as far as the registers, flags and pointers outside the footprint go. -/
structure Footprint.Within (w : Footprint) (s t : State) : Prop where
  regs : ∀ r, r ∉ w.regs → t.reg r = s.reg r
  sp : w.sp = false → t.sp = s.sp
  pc : w.pc = false → t.pc = s.pc
  flags : w.flags.Within s.f t.f

end Sys2Proof.Machine

namespace Sys2Proof

/-- What the effect tables let an instruction write. -/
def Instr.footprint (i : Instr) : Machine.Footprint :=
  ⟨i.destRegs, i.writesSp, i.writesPc, i.writesFlag⟩

end Sys2Proof

namespace Sys2Proof.Machine

/-! ## Flags -/

theorem Flags.Within.refl (mask f : Flags) : mask.Within f f :=
  ⟨fun _ => rfl, fun _ => rfl, fun _ => rfl, fun _ => rfl⟩

theorem Flags.Within.trans {mask f g h : Flags} (hfg : mask.Within f g) (hgh : mask.Within g h) :
    mask.Within f h :=
  ⟨fun m => (hgh.z m).trans (hfg.z m), fun m => (hgh.n m).trans (hfg.n m),
    fun m => (hgh.h m).trans (hfg.h m), fun m => (hgh.c m).trans (hfg.c m)⟩

/-- A mask of all four flags allows everything. -/
theorem Flags.Within.all (f g : Flags) : Flags.Within ⟨true, true, true, true⟩ f g := by
  constructor <;> simp

theorem incResult_flags (v : Byte) (f : Flags) :
    Flags.Within ⟨true, true, true, false⟩ f (incResult v f).f := by
  constructor <;> simp [incResult]

theorem decResult_flags (v : Byte) (f : Flags) :
    Flags.Within ⟨true, true, true, false⟩ f (decResult v f).f := by
  constructor <;> simp [decResult]

theorem bitFlags_flags (v : Byte) (b : Nat) (f : Flags) :
    Flags.Within ⟨true, true, true, false⟩ f (bitFlags v b f) := by
  constructor <;> simp [bitFlags]

theorem daaResult_flags (a : Byte) (f : Flags) :
    Flags.Within ⟨true, false, true, true⟩ f (daaResult a f).f := by
  constructor <;> simp [daaResult]

theorem cplResult_flags (a : Byte) (f : Flags) :
    Flags.Within ⟨false, true, true, false⟩ f (cplResult a f).f := by
  constructor <;> simp [cplResult]

theorem scfFlags_flags (f : Flags) : Flags.Within ⟨false, true, true, true⟩ f (scfFlags f) := by
  constructor <;> simp [scfFlags]

theorem ccfFlags_flags (f : Flags) : Flags.Within ⟨false, true, true, true⟩ f (ccfFlags f) := by
  constructor <;> simp [ccfFlags]

theorem addHlFlags_flags (a b : Word) (f : Flags) :
    Flags.Within ⟨false, true, true, true⟩ f (addHlFlags a b f) := by
  constructor <;> simp [addHlFlags]

namespace Footprint.Within

variable {w : Footprint} {s t u : State} {α β : Type}

/-! ## Updates of the state -/

theorem refl (w : Footprint) (s : State) : w.Within s s :=
  ⟨fun _ _ => rfl, fun _ => rfl, fun _ => rfl, .refl _ _⟩

/-- An update that writes no register, pointer or flag. -/
theorem congr (h : w.Within s t) (hr : u.reg = t.reg) (hsp : u.sp = t.sp) (hpc : u.pc = t.pc)
    (hf : u.f = t.f) : w.Within s u :=
  ⟨fun r m => hr ▸ h.regs r m, fun m => hsp ▸ h.sp m, fun m => hpc ▸ h.pc m, hf ▸ h.flags⟩

theorem busOnly (h : w.Within s t) (ht : BusOnly t u) : w.Within s u :=
  h.congr (by rw [ht]; rfl) ht.sp ht.pc ht.f

theorem setReg (h : w.Within s t) {r : Reg8} (hr : r ∈ w.regs) (v : Byte) :
    w.Within s (t.setReg r v) where
  regs r' hr' := by
    have hne : r' ≠ r := fun he => hr' (he ▸ hr)
    rw [State.reg_setReg, if_neg hne, h.regs r' hr']
  sp m := (State.setReg_sp t r v).trans (h.sp m)
  pc m := (State.setReg_pc t r v).trans (h.pc m)
  flags := by rw [State.setReg_f]; exact h.flags

theorem setFlags (h : w.Within s t) {f : Flags} (hf : w.flags.Within s.f f) :
    w.Within s { t with f := f } :=
  ⟨h.regs, h.sp, h.pc, hf⟩

theorem setSp (h : w.Within s t) (hsp : w.sp = true) (v : Word) : w.Within s { t with sp := v } :=
  ⟨h.regs, by simp [hsp], h.pc, h.flags⟩

theorem setPc (h : w.Within s t) (hpc : w.pc = true) (v : Word) : w.Within s { t with pc := v } :=
  ⟨h.regs, h.sp, by simp [hpc], h.flags⟩

theorem setLatches (h : w.Within s t) (ime halted stopped : Bool) :
    w.Within s { t with ime := ime, halted := halted, stopped := stopped } :=
  h.congr rfl rfl rfl rfl

theorem setHl (h : w.Within s t) (hh : .h ∈ w.regs) (hl : .l ∈ w.regs) (v : Word) :
    w.Within s (t.setHl v) :=
  (h.setReg hh (highByte v)).setReg hl (lowByte v)

theorem setPair (h : w.Within s t) {rp : Rp} (hr : ∀ r ∈ rp.halves, r ∈ w.regs)
    (hsp : rp = .sp → w.sp = true) (v : Word) : w.Within s (t.setPair rp v) := by
  cases rp with
  | bc => exact (h.setReg (hr .b (by decide)) (highByte v)).setReg (hr .c (by decide)) (lowByte v)
  | de => exact (h.setReg (hr .d (by decide)) (highByte v)).setReg (hr .e (by decide)) (lowByte v)
  | hl => exact h.setHl (hr .h (by decide)) (hr .l (by decide)) v
  | sp => exact h.setSp (hsp rfl) v

theorem setStackPair (h : w.Within s t) {rp : Rp2} (hr : ∀ r ∈ rp.halves, r ∈ w.regs) (v : Word) :
    w.Within s (t.setStackPair rp v) := by
  cases rp with
  | bc => exact h.setPair (rp := .bc) hr nofun v
  | de => exact h.setPair (rp := .de) hr nofun v
  | hl => exact h.setPair (rp := .hl) hr nofun v

theorem setAf (h : w.Within s t) (ha : .a ∈ w.regs) {v : Word}
    (hf : w.flags.Within s.f (Flags.ofByte (lowByte v))) : w.Within s (t.setAf v) :=
  (h.setFlags hf).setReg ha (highByte v)

/-! ## Operations -/

theorem bind {x : Res α} {k : α → State → Res β} (hx : w.Within s x.state)
    (hk : ∀ v u, w.Within s u → w.Within s (k v u).state) : w.Within s (x.bind k).state := by
  cases x with
  | ok v u => exact hk v u hx
  | raised u => exact hx

/-- The outcome of an instruction is the state its operation ends in. -/
theorem finish {x : Res Unit} (hx : w.Within s x.state) (ht : x.finish = .next t) : w.Within s t := by
  cases x <;> cases ht <;> exact hx

theorem raise (h : w.Within s t) (k : Fault) : w.Within s (Machine.raise k t : Res α).state :=
  h.congr rfl rfl rfl rfl

theorem done (h : w.Within s t) (n : Nat) : w.Within s (Machine.done n t).state :=
  h.congr rfl rfl rfl rfl

theorem busRead (h : w.Within s t) (a : Word) : w.Within s (Machine.busRead a t).state :=
  h.busOnly (busRead_busOnly a t)

theorem busWrite (h : w.Within s t) (a : Word) (v : Byte) : w.Within s (Machine.busWrite a v t).state :=
  h.busOnly (busWrite_busOnly a v t)

theorem memWrite16 (h : w.Within s t) (a v : Word) : w.Within s (Machine.memWrite16 a v t).state :=
  (h.busWrite a (lowByte v)).bind fun _ _ hu => hu.busWrite (a + 1) (highByte v)

theorem pushByte (h : w.Within s t) (hsp : w.sp = true) (v : Byte) :
    w.Within s (Machine.pushByte v t).state :=
  (h.setSp hsp (t.sp - 1)).busWrite (t.sp - 1) v

theorem push16 (h : w.Within s t) (hsp : w.sp = true) (v : Word) :
    w.Within s (Machine.push16 v t).state :=
  (h.pushByte hsp (highByte v)).bind fun _ _ hu => hu.pushByte hsp (lowByte v)

theorem popByte (h : w.Within s t) (hsp : w.sp = true) : w.Within s (Machine.popByte t).state :=
  (h.busRead t.sp).bind fun _ u hu => hu.setSp hsp (u.sp + 1)

theorem pop16 (h : w.Within s t) (hsp : w.sp = true) : w.Within s (Machine.pop16 t).state :=
  (h.popByte hsp).bind fun _ _ hu => (hu.popByte hsp).bind fun _ _ hu' => hu'

/-! ## Loads and stores -/

theorem loadReg (h : w.Within s t) {r : Reg8} (hr : r ∈ w.regs) (a : Word) (n : Nat) :
    w.Within s (Machine.loadReg r a n t).state :=
  (h.busRead a).bind fun v _ hu => (hu.setReg hr v).done n

theorem storeByte (h : w.Within s t) (a : Word) (v : Byte) (n : Nat) :
    w.Within s (Machine.storeByte a v n t).state :=
  (h.busWrite a v).bind fun _ _ hu => hu.done n

theorem loadStepHl (h : w.Within s t) (ha : .a ∈ w.regs) (hh : .h ∈ w.regs) (hl : .l ∈ w.regs)
    (step : Word) (n : Nat) : w.Within s (Machine.loadStepHl step n t).state :=
  (h.busRead t.hl).bind fun v u hu => ((hu.setReg ha v).setHl hh hl (u.hl + step)).done n

theorem storeStepHl (h : w.Within s t) (hh : .h ∈ w.regs) (hl : .l ∈ w.regs) (step : Word) (n : Nat) :
    w.Within s (Machine.storeStepHl step n t).state :=
  (h.busWrite t.hl t.a).bind fun _ u hu => (hu.setHl hh hl (u.hl + step)).done n

/-! ## Arithmetic, rotates and bits -/

theorem writeAcc (h : w.Within s t) (ha : .a ∈ w.regs) {x : AluResult} (hf : w.flags.Within s.f x.f)
    (n : Nat) : w.Within s (Machine.writeAcc x n t).state :=
  ((h.setFlags hf).setReg ha x.r).done n

theorem writeFlags (h : w.Within s t) {f : Flags} (hf : w.flags.Within s.f f) (n : Nat) :
    w.Within s (Machine.writeFlags f n t).state :=
  (h.setFlags hf).done n

theorem writeReg (h : w.Within s t) {r : Reg8} (hr : r ∈ w.regs) {x : AluResult}
    (hf : w.flags.Within s.f x.f) (n : Nat) : w.Within s (Machine.writeReg r x n t).state :=
  ((h.setFlags hf).setReg hr x.r).done n

theorem withHl (h : w.Within s t) {k : Byte → State → Res Unit}
    (hk : ∀ v u, w.Within s u → w.Within s (k v u).state) : w.Within s (Machine.withHl k t).state :=
  (h.busRead t.hl).bind hk

theorem modifyHl (h : w.Within s t) {g : Byte → AluResult} (hg : ∀ v, w.flags.Within s.f (g v).f)
    (n : Nat) : w.Within s (Machine.modifyHl g n t).state :=
  h.withHl fun v u hu => (hu.busWrite u.hl (g v).r).bind fun _ _ hu' => (hu'.setFlags (hg v)).done n

theorem updateHl (h : w.Within s t) (g : Byte → Byte) (n : Nat) :
    w.Within s (Machine.updateHl g n t).state :=
  h.withHl fun v u hu => (hu.busWrite u.hl (g v)).bind fun _ _ hu' => hu'.done n

theorem withIndex (h : w.Within s t) (b : Nat) {k : State → Res Unit} (hk : w.Within s (k t).state) :
    w.Within s (Machine.withIndex b k t).state := by
  unfold Machine.withIndex
  split
  · exact hk
  · exact h.raise _

/-! ## Control transfers -/

theorem jump (h : w.Within s t) (hpc : w.pc = true) (a : Word) (n : Nat) :
    w.Within s (Machine.jump a n t).state :=
  (h.setPc hpc a).done n

theorem call (h : w.Within s t) (hsp : w.sp = true) (hpc : w.pc = true) (a : Word) (n : Nat) :
    w.Within s (Machine.call a n t).state :=
  (h.push16 hsp t.pc).bind fun _ _ hu => hu.jump hpc a n

theorem returnTo (h : w.Within s t) (hsp : w.sp = true) (hpc : w.pc = true) (n : Nat) :
    w.Within s (Machine.returnTo n t).state :=
  (h.pop16 hsp).bind fun v _ hu => hu.jump hpc v n

theorem returnFromInterrupt (h : w.Within s t) (hsp : w.sp = true) (hpc : w.pc = true) :
    w.Within s (Machine.returnFromInterrupt t).state :=
  (h.pop16 hsp).bind fun v _ hu => (hu.setPc hpc v).setLatches true _ _

theorem ifCond (h : w.Within s t) (cc : Cond) {k : State → Res Unit} (n : Nat)
    (hk : w.Within s (k t).state) : w.Within s (Machine.ifCond cc k n t).state := by
  unfold Machine.ifCond
  split
  · exact hk
  · exact h.done n

end Footprint.Within
end Sys2Proof.Machine
end

section
/-! PROOF. Every instruction keeps within the footprint of the effect tables. -/

namespace Sys2Proof.Machine

/-- What an instruction that ends in `t` has written lies within its tables; the 0xCB entry is the one
exception, its tables being those of the fetch alone (R102). -/
theorem exec_within {i : Instr} {s t : State} (hi : i ≠ .prefixCb) (ht : exec i s = .next t) :
    i.footprint.Within s t := by
  have h := Footprint.Within.refl i.footprint s
  cases i with
  | prefixCb => exact absurd rfl hi
  -- 8-bit loads and stores
  | ldRR r _ | ldRD8 r _ => exact ((h.setReg (.head _) _).done _).finish ht
  | ldRHl r => exact (h.loadReg (.head _) _ _).finish ht
  | ldABc | ldADe | ldAA16 _ | ldhAA8 _ | ldAC => exact (h.loadReg (.head _) _ _).finish ht
  | ldHlR _ | ldHlD8 _ | ldBcA | ldDeA | ldA16A _ | ldhA8A _ | ldCA => exact (h.storeByte _ _ _).finish ht
  | ldAHlInc | ldAHlDec =>
    exact (h.loadStepHl (.head _) (.tail _ (.head _)) (.tail _ (.tail _ (.head _))) _ _).finish ht
  | ldHlIncA | ldHlDecA => exact (h.storeStepHl (.head _) (.tail _ (.head _)) _ _).finish ht
  -- 16-bit loads and the stack
  | ldRpD16 rp _ | incRp rp | decRp rp =>
    exact ((h.setPair (fun _ hr => hr) (fun e => by rw [e]; rfl) _).done _).finish ht
  | ldA16Sp _ => exact ((h.memWrite16 _ _).bind fun _ _ hu => hu.done _).finish ht
  | ldSpHl => exact ((h.setSp rfl _).done _).finish ht
  | ldHlSpE _ => exact (((h.setFlags (.all _ _)).setHl (.head _) (.tail _ (.head _)) _).done _).finish ht
  | push _ | pushAf => exact ((h.push16 rfl _).bind fun _ _ hu => hu.done _).finish ht
  | pop rp =>
    exact ((h.pop16 rfl).bind fun _ _ hu => (hu.setStackPair (fun _ hr => hr) _).done _).finish ht
  | popAf => exact ((h.pop16 rfl).bind fun _ _ hu => (hu.setAf (.head _) (.all _ _)).done _).finish ht
  -- the accumulator
  | addAR _ | adcAR _ | subR _ | sbcAR _ | andR _ | xorR _ | orR _
  | addAD8 _ | adcAD8 _ | subD8 _ | sbcAD8 _ | andD8 _ | xorD8 _ | orD8 _
  | rlca | rrca | rla | rra => exact (h.writeAcc (.head _) (.all _ _) _).finish ht
  | addAHl | adcAHl | subHl | sbcAHl | andHl | xorHl | orHl =>
    exact (h.withHl fun _ _ hu => hu.writeAcc (.head _) (.all _ _) _).finish ht
  | cpR _ | cpD8 _ => exact (h.writeFlags (.all _ _) _).finish ht
  | cpHl => exact (h.withHl fun _ _ hu => hu.writeFlags (.all _ _) _).finish ht
  | daa => exact (h.writeAcc (.head _) (daaResult_flags _ _) _).finish ht
  | cpl => exact (h.writeAcc (.head _) (cplResult_flags _ _) _).finish ht
  | scf => exact (h.writeFlags (scfFlags_flags _) _).finish ht
  | ccf => exact (h.writeFlags (ccfFlags_flags _) _).finish ht
  -- INC, DEC and the 16-bit additions
  | incR _ => exact (h.writeReg (.head _) (incResult_flags _ _) _).finish ht
  | decR _ => exact (h.writeReg (.head _) (decResult_flags _ _) _).finish ht
  | incHl => exact (h.modifyHl (fun _ => incResult_flags _ _) _).finish ht
  | decHl => exact (h.modifyHl (fun _ => decResult_flags _ _) _).finish ht
  | addHlRp _ =>
    exact (((h.setFlags (addHlFlags_flags _ _ _)).setHl (.head _) (.tail _ (.head _)) _).done _).finish ht
  | addSpE e =>
    exact (((h.setFlags (.all s.f (spPlusEFlags s.sp e))).setSp rfl (spPlusE s.sp e)).done _).finish ht
  -- the secondary table
  | rlcR _ | rrcR _ | rlR _ | rrR _ | slaR _ | sraR _ | swapR _ | srlR _ =>
    exact (h.writeReg (.head _) (.all _ _) _).finish ht
  | rlcHl | rrcHl | rlHl | rrHl | slaHl | sraHl | swapHl | srlHl =>
    exact (h.modifyHl (fun _ => .all _ _) _).finish ht
  | bitBR _ _ => exact (h.withIndex _ (h.writeFlags (bitFlags_flags _ _ _) _)).finish ht
  | bitBHl _ =>
    exact (h.withIndex _ (h.withHl fun _ _ hu =>
      hu.writeFlags (hu.flags.trans (bitFlags_flags _ _ _)) _)).finish ht
  | resBR _ _ | setBR _ _ => exact (h.withIndex _ ((h.setReg (.head _) _).done _)).finish ht
  | resBHl _ | setBHl _ => exact (h.withIndex _ (h.updateHl _ _)).finish ht
  -- control transfers
  | jpA16 _ | jpHl | jrE _ => exact (h.jump rfl _ _).finish ht
  | jpCcA16 cc _ | jrCcE cc _ => exact (h.ifCond cc _ (h.jump rfl _ _)).finish ht
  | callA16 _ => exact (h.call rfl rfl _ _).finish ht
  | callCcA16 cc _ => exact (h.ifCond cc _ (h.call rfl rfl _ _)).finish ht
  | ret => exact (h.returnTo rfl rfl _).finish ht
  | reti => exact ((h.returnFromInterrupt rfl rfl).bind fun _ _ hu => hu.done _).finish ht
  | retCc cc => exact (h.ifCond cc _ (h.returnTo rfl rfl _)).finish ht
  | rstT t => exact (h.withIndex t (h.call rfl rfl _ _)).finish ht
  -- the rest
  | nop => exact (h.done _).finish ht
  | halt | stop _ | di | ei => exact ((h.setLatches _ _ _).done _).finish ht
  | illegalD3 | illegalDB | illegalDD | illegalE3 | illegalE4 | illegalEB | illegalEC | illegalED
  | illegalF4 | illegalFC | illegalFD => exact (h.raise _).finish ht

/-- Settles O17: an instruction writes within its tables, which is the statement field by field. -/
theorem registerAndFlagFrame : Obligations.RegisterAndFlagFrame := by
  intro i s t hi ht
  obtain ⟨hregs, hsp, hpc, hz, hn, hh, hc⟩ := exec_within hi ht
  exact ⟨hregs, hsp, hpc, hz, hn, hh, hc⟩

end Sys2Proof.Machine
end

section
/-! PROOF. What the environment's moves reach, where a step's move comes from, and what is left to happen after a
fault or a stop: `EnvironmentMoves` and `NoStepOnceOver` (00_scope.md R9, R14, R15, 10_state.md R35, R36, R40). -/

namespace Sys2Proof.Machine

/-- `t` is `s` but for what the environment reaches (R14). -/
def EnvOnly (s t : State) : Prop :=
  t = { s with ifl := t.ifl, ie := t.ie, mem := t.mem, devices := t.devices, lock := t.lock,
               queue := t.queue, fault := t.fault, reply := t.reply }

theorem EnvOnly.refl (s : State) : EnvOnly s s := rfl

theorem EnvOnly.trans {s t u : State} (h : EnvOnly s t) (h' : EnvOnly t u) : EnvOnly s u := by
  unfold EnvOnly at *; rw [h', h]

theorem EnvOnly.stopped {s t : State} (h : EnvOnly s t) : t.stopped = s.stopped := by rw [h]

theorem BusOnly.envOnly {s t : State} (h : BusOnly s t) : EnvOnly s t := by
  unfold EnvOnly; rw [h]

/-! ## The moves -/

theorem EnvOnly.setLock (s : State) (l : Option Master) : EnvOnly s { s with lock := l } := rfl

theorem EnvOnly.setQueue (s : State) (q : List Event) : EnvOnly s { s with queue := q } := rfl

theorem EnvOnly.setReply (s : State) (r : Option Reply) : EnvOnly s { s with reply := r } := rfl

theorem setFlag_envOnly (k : Nat) (s : State) : EnvOnly s (s.setFlag k) := by
  unfold State.setFlag; split <;> rfl

theorem clearFlag_envOnly (k : Nat) (s : State) : EnvOnly s (s.clearFlag k) := by
  unfold State.clearFlag; split <;> rfl

theorem unlockBy_envOnly (m : Master) (s : State) : EnvOnly s (s.unlockBy m) := by
  unfold State.unlockBy; split <;> rfl

/-- The outcome is a next state that differs only in what the environment reaches. -/
def EnvOutcome (s : State) (o : Out) : Prop := ∃ t, o = .next t ∧ EnvOnly s t

theorem answer_envOutcome {s t : State} (h : EnvOnly s t) (r : Reply) : EnvOutcome s (answer r t) :=
  ⟨_, rfl, h.trans (.setReply t _)⟩

theorem queueFailure_envOutcome (k : Fault) (s : State) : EnvOutcome s (queueFailure k s) := ⟨_, rfl, rfl⟩

theorem masterAccess_envOutcome {α : Type} (m : Nat) {op : State → Res α} (reply : α → Reply) {s : State}
    (h : BusOnly s (op s).state) : EnvOutcome s (masterAccess m op reply s) := by
  unfold masterAccess
  split
  · cases hop : op s with
    | ok v t => rw [hop] at h; exact answer_envOutcome h.envOnly _
    | raised t => rw [hop] at h; exact ⟨_, rfl, h.envOnly.trans (.setReply t _)⟩
  · exact answer_envOutcome (.refl s) _

theorem queueWritten_envOutcome (x : Except Fault (List Event)) (s : State) :
    EnvOutcome s (queueWritten x s) := by
  cases x with
  | ok q => exact answer_envOutcome (.setQueue s q) _
  | error k => exact queueFailure_envOutcome k s

theorem queueTaken_envOutcome (x : Except Fault (Event × List Event)) (s : State) :
    EnvOutcome s (queueTaken x s) := by
  cases x with
  | ok p => exact answer_envOutcome (.setQueue s p.2) _
  | error k => exact queueFailure_envOutcome k s

theorem queueSeen_envOutcome (x : Except Fault Event) (s : State) : EnvOutcome s (queueSeen x s) := by
  cases x with
  | ok e => exact answer_envOutcome (.refl s) _
  | error k => exact queueFailure_envOutcome k s

theorem runMove_envOutcome {m : Move} (hm : m ≠ .cpuStep) (s : State) : EnvOutcome s (runMove m s) := by
  cases m with
  | cpuStep => exact absurd rfl hm
  | setFlag k => exact answer_envOutcome (setFlag_envOnly k s) _
  | clearFlag k => exact answer_envOutcome (clearFlag_envOnly k s) _
  | busRead m a => exact masterAccess_envOutcome m _ (busRead_busOnly a s)
  | busWrite m a v => exact masterAccess_envOutcome m _ (busWrite_busOnly a v s)
  | lock m =>
    by_cases hl : s.lockFreeFor (.dev m) = true
    · rw [runMove, if_pos hl]; exact answer_envOutcome (.setLock s _) _
    · rw [runMove, if_neg hl]; exact answer_envOutcome (.refl s) _
  | unlock m => exact answer_envOutcome (unlockBy_envOnly _ s) _
  | schedule _ | push _ => exact queueWritten_envOutcome _ s
  | executeNext | pop => exact queueTaken_envOutcome _ s
  | front => exact queueSeen_envOutcome _ s
  | isEmpty | isFull => exact answer_envOutcome (.refl s) _

/-! ## Where a step's move comes from -/

theorem step_of_fault {s : State} (h : s.fault ≠ none) : step s = .next s := by
  simp [step, nextAction, Option.isSome_iff_ne_none, h]

theorem step_of_no_fault {s : State} (h : s.fault = none) :
    step s = runMove s.takeMove.1 s.takeMove.2 := by
  simp [step, nextAction, h]

/-- Settles O28: the source of the move is `takeMove`'s three cases, its effect the move's own. -/
theorem environmentMoves : Obligations.EnvironmentMoves := by
  refine ⟨fun s hf hi hr => ?_, fun s m rest hf hi => ?_, fun s k hf hi hr => ?_, fun _ => rfl,
    fun s m hm => runMove_envOutcome hm s⟩
  · rw [step_of_no_fault hf, State.takeMove_quiet hi hr]; rfl
  · rw [step_of_no_fault hf, State.takeMove_pending hi]
  · rw [step_of_no_fault hf, State.takeMove_free hi hr]

/-! ## After a fault or a stop -/

theorem cpuStep_of_held {s : State} (h : s.cpuHeld = true) : cpuStep s = .next s := if_pos h

theorem cpuStep_of_fault {s : State} (h : s.fault ≠ none) : cpuStep s = .next s :=
  cpuStep_of_held (by simp [State.cpuHeld, Option.isSome_iff_ne_none, h])

theorem cpuStep_of_stopped {s : State} (h : s.stopped = true) : cpuStep s = .next s :=
  cpuStep_of_held (by simp [State.cpuHeld, h])

theorem step_of_stopped {s : State} (h : s.stopped = true) (hi : s.inputs = []) (hr : s.freeRun = none) :
    step s = .next s := by
  by_cases hf : s.fault = none
  · rw [step_of_no_fault hf, State.takeMove_quiet hi hr]
    exact cpuStep_of_stopped h
  · exact step_of_fault hf

theorem Makes.eq_of_fault {m : Move} {s t : State} (h : Makes m s t) (hf : s.fault ≠ none) : t = s :=
  (if_neg hf).mp h

/-- Of a stopped machine a move of a run changes only what the environment reaches. -/
theorem Makes.envOnly_of_stopped {m : Move} {s t : State} (h : Makes m s t) (hs : s.stopped = true) :
    EnvOnly s t := by
  by_cases hf : s.fault = none
  · have hrun : runMove m s = .next t := (if_pos hf).mp h
    by_cases hm : m = .cpuStep
    · subst hm
      cases (cpuStep_of_stopped hs).symm.trans hrun
      exact .refl s
    · obtain ⟨u, hu, hsu⟩ := runMove_envOutcome hm s
      cases hu.symm.trans hrun
      exact hsu
  · rw [h.eq_of_fault hf]; exact .refl s

section Runs

variable {moves : Nat → Move} {states : Nat → State}

theorem IsRun.eq_after_fault (h : IsRun moves states) {n : Nat} (hf : (states n).fault ≠ none) (k : Nat) :
    states (n + k) = states n := by
  induction k with
  | zero => rfl
  | succ k ih => exact ((h.next (n + k)).eq_of_fault (ih ▸ hf)).trans ih

theorem IsRun.envOnly_after_stop (h : IsRun moves states) {n : Nat} (hs : (states n).stopped = true)
    (k : Nat) : EnvOnly (states n) (states (n + k)) := by
  induction k with
  | zero => exact .refl _
  | succ k ih => exact ih.trans ((h.next (n + k)).envOnly_of_stopped (ih.stopped.trans hs))

end Runs

/-- Settles O27: the step clauses are `step` and `cpuStep` of a held CPU, the clauses about runs an induction
over the moves after the fault or the stop. -/
theorem noStepOnceOver : Obligations.NoStepOnceOver :=
  ⟨fun _ => ⟨fun hf => ⟨step_of_fault hf, cpuStep_of_fault hf⟩,
      fun hs => ⟨cpuStep_of_stopped hs, step_of_stopped hs⟩⟩,
    fun _ _ hrun _ k => ⟨fun hf => hrun.eq_after_fault hf k, fun hs => hrun.envOnly_after_stop hs k⟩⟩

end Sys2Proof.Machine
end

section
/-! PROOF. The state after reset: `ResetValues` (00_scope.md R7, 10_state.md R41). -/

namespace Sys2Proof.Machine

/-- The register pairs of R41's table. -/
theorem resetWith_default_pairs (p : Platform) :
    (State.resetWith .default p).af = 0x01B0 ∧ (State.resetWith .default p).bc = 0x0013 ∧
    (State.resetWith .default p).de = 0x00D8 ∧ (State.resetWith .default p).hl = 0x014D :=
  ⟨(by decide : wordOf 0x01 (Flags.toByte ⟨true, false, true, true⟩) = 0x01B0),
    (by decide : wordOf 0x00 0x13 = 0x0013), (by decide : wordOf 0x00 0xD8 = 0x00D8),
    (by decide : wordOf 0x01 0x4D = 0x014D)⟩

/-- With IME, the latches and the lock as R41 has them, only the environment can keep the first step from being
a Normal-Dispatch. -/
theorem resetWith_default_dispatches {p : Platform} (hi : p.inputs = []) (hr : p.freeRun = none) :
    (State.resetWith .default p).dispatches :=
  ⟨⟨hi, hr, rfl, rfl, .inl rfl⟩, rfl, rfl⟩

/-- Settles O16: each field is its argument by the definition of `resetWith`; the pairs and the first step
follow from the default RESET. -/
theorem resetValues : Obligations.ResetValues := by
  refine ⟨fun r p => ?_, fun p => ?_, rfl, rfl⟩
  · simp [State.resetWith]
  · obtain ⟨haf, hbc, hde, hhl⟩ := resetWith_default_pairs p
    exact ⟨haf, hbc, hde, hhl, rfl, rfl, rfl, rfl, rfl, rfl, rfl, rfl, rfl, rfl, rfl,
      resetWith_default_dispatches⟩

end Sys2Proof.Machine
end

section
/-! PROOF. What an operation of the CPU may do to the control state, the counter and the storage: the frame that the
shared operations, the instructions and the CPU step keep to (10_state.md R30 to R36, R40, 20_memory.md R63, R76). -/

namespace Sys2Proof.Machine

/-! ## What is kept by every bus access -/

/-- What the bus accesses act on besides the interrupt registers: the connection list, the storage and the
device states. -/
structure Storage where
  bus : List Connection
  mem : Memory
  devices : DeviceStates

/-- The storage of a state. -/
def State.storage (s : State) : Storage := ⟨s.bus, s.mem, s.devices⟩

/-- A property of the storage that every bus access keeps. -/
structure BusKept (P : Storage → Prop) : Prop where
  read : ∀ a s, P s.storage → P (busRead a s).state.storage
  write : ∀ a v s, P s.storage → P (busWrite a v s).state.storage

/-! ## The frame of the CPU -/

/-- The control latches an operation may write: IME, the lock, halted and stopped. -/
structure Latches where
  ime : Bool
  lock : Bool
  halted : Bool
  stopped : Bool

/-- No control latch. -/
def Latches.none : Latches := ⟨false, false, false, false⟩

/-- Every control latch. -/
def Latches.all : Latches := ⟨true, true, true, true⟩

/-- `t` is `s` but for the registers, the counter, the latches, the interrupt registers, storage and device
states: the map, the parameters, the queue and the model's own fields are as before. -/
def CpuOnly (s t : State) : Prop :=
  t = { s with a := t.a, f := t.f, b := t.b, c := t.c, d := t.d, e := t.e, h := t.h, l := t.l, sp := t.sp,
               pc := t.pc, cyc := t.cyc, ime := t.ime, ie := t.ie, ifl := t.ifl, halted := t.halted,
               stopped := t.stopped, fault := t.fault, lock := t.lock, mem := t.mem, devices := t.devices }

/-- `t` is `s` but for the registers, the interrupt registers, storage and device states: no latch and no counter
has changed. -/
def DataOnly (s t : State) : Prop :=
  t = { s with a := t.a, f := t.f, b := t.b, c := t.c, d := t.d, e := t.e, h := t.h, l := t.l, sp := t.sp,
               pc := t.pc, ie := t.ie, ifl := t.ifl, mem := t.mem, devices := t.devices }

/-- `t` is `s` but for the registers, the flags and the two pointers. -/
def RegsOnly (s t : State) : Prop :=
  t = { s with a := t.a, f := t.f, b := t.b, c := t.c, d := t.d, e := t.e, h := t.h, l := t.l, sp := t.sp,
               pc := t.pc }

/-- What the CPU has done on the way from `s` to `t`: it has written no latch outside the mask, and reached
storage by bus accesses alone. For an update of other fields each part holds by `rfl`. -/
structure CpuFrame (w : Latches) (s t : State) : Prop where
  only : CpuOnly s t := by exact rfl
  ime : w.ime = false → t.ime = s.ime := by exact fun _ => rfl
  lock : w.lock = false → t.lock = s.lock := by exact fun _ => rfl
  halted : w.halted = false → t.halted = s.halted := by exact fun _ => rfl
  stopped : w.stopped = false → t.stopped = s.stopped := by exact fun _ => rfl
  kept : ∀ {P : Storage → Prop}, BusKept P → P s.storage → P t.storage := by exact fun _ hs => hs

/-- An operation under way: no fault raised, no cycle counted. -/
structure Works (w : Latches) (s t : State) : Prop where
  frame : CpuFrame w s t
  cyc : t.cyc = s.cyc := by exact rfl
  fault : t.fault = s.fault := by exact rfl

/-- A number of cycles that an instruction can take, as a test that evaluates. -/
abbrev IsCost (n : Nat) : Prop := decide (1 ≤ n ∧ n ≤ 6) = true

/-- A completed operation: `tick` has added 1 to 6 cycles and no fault was raised. -/
structure Ticked (w : Latches) (s t : State) : Prop where
  frame : CpuFrame w s t
  cyc : ∃ n, 1 ≤ n ∧ n ≤ 6 ∧ t.cyc = s.cyc + BitVec.ofNat 64 n
  fault : t.fault = s.fault

/-- A faulted operation: the latch is set and no cycle was counted. -/
structure Faulted (w : Latches) (s t : State) : Prop where
  frame : CpuFrame w s t
  cyc : t.cyc = s.cyc
  fault : ∃ k, t.fault = some k

/-- The operation, begun in `s`, raises a fault or ends in a state with `Q`. -/
def Res.Ends {α : Type} (w : Latches) (s : State) (Q : State → Prop) : Res α → Prop
  | .ok _ t => Q t
  | .raised t => Faulted w s t

/-- The outcome is a next state, of a completed or a faulted operation. -/
def Ended (w : Latches) (s : State) (o : Out) : Prop :=
  ∃ t, o = .next t ∧ (Ticked w s t ∨ Faulted w s t)

/-! ## One part of an operation after the other -/

variable {w : Latches} {s t u : State} {α β : Type}

theorem CpuOnly.trans (h : CpuOnly s t) (h' : CpuOnly t u) : CpuOnly s u := by
  unfold CpuOnly at *; rw [h', h]

theorem CpuFrame.trans (h : CpuFrame w s t) (h' : CpuFrame w t u) : CpuFrame w s u where
  only := h.only.trans h'.only
  ime m := (h'.ime m).trans (h.ime m)
  lock m := (h'.lock m).trans (h.lock m)
  halted m := (h'.halted m).trans (h.halted m)
  stopped m := (h'.stopped m).trans (h.stopped m)
  kept hP hs := h'.kept hP (h.kept hP hs)

/-- A mask of every latch allows whatever another allows. -/
theorem CpuFrame.toAll (h : CpuFrame w s t) : CpuFrame .all s t :=
  ⟨h.only, nofun, nofun, nofun, nofun, h.kept⟩

theorem Works.trans (h : Works w s t) (h' : Works w t u) : Works w s u :=
  ⟨h.frame.trans h'.frame, h'.cyc.trans h.cyc, h'.fault.trans h.fault⟩

theorem Works.toAll (h : Works w s t) : Works .all s t := ⟨h.frame.toAll, h.cyc, h.fault⟩

theorem Works.ticked (h : Works w s t) (h' : Ticked w t u) : Ticked w s u :=
  ⟨h.frame.trans h'.frame, h.cyc ▸ h'.cyc, h'.fault.trans h.fault⟩

theorem Works.faulted (h : Works w s t) (h' : Faulted w t u) : Faulted w s u :=
  ⟨h.frame.trans h'.frame, h'.cyc.trans h.cyc, h'.fault⟩

theorem Works.ended (h : Works w s t) {o : Out} : Ended w t o → Ended w s o
  | ⟨u, ho, hu⟩ => ⟨u, ho, hu.imp h.ticked h.faulted⟩

theorem Ticked.toAll (h : Ticked w s t) : Ticked .all s t := ⟨h.frame.toAll, h.cyc, h.fault⟩

theorem Faulted.toAll (h : Faulted w s t) : Faulted .all s t := ⟨h.frame.toAll, h.cyc, h.fault⟩

theorem Res.Ends.bind {Q : State → Prop} {x : Res α} {k : α → State → Res β}
    (hx : x.Ends w s (Works w s)) (hk : ∀ v u, Works w s u → (k v u).Ends w s Q) :
    (x.bind k).Ends w s Q := by
  cases x with
  | ok v u => exact hk v u hx
  | raised u => exact hx

/-- The two ends of an operation. -/
theorem Res.Ends.elim {Q : State → Prop} {x : Res α} (hx : x.Ends w s Q) :
    (∃ v t, x = .ok v t ∧ Q t) ∨ ∃ t, x = .raised t ∧ Faulted w s t := by
  cases x with
  | ok v t => exact .inl ⟨v, t, rfl, hx⟩
  | raised t => exact .inr ⟨t, rfl, hx⟩

theorem Works.ends (h : Works w s t) {x : Res α} (hx : x.Ends w t (Works w t)) :
    x.Ends w s (Works w s) := by
  cases x with
  | ok v u => exact h.trans hx
  | raised u => exact h.faulted hx

/-- Both ends of an instruction are a next state. -/
theorem Ended.finish {x : Res Unit} (hx : x.Ends w s (Ticked w s)) : Ended w s x.finish := by
  cases x with
  | ok _ t => exact ⟨t, rfl, .inl hx⟩
  | raised t => exact ⟨t, rfl, .inr hx⟩

/-! ## Updates of the state -/

theorem DataOnly.works (h : DataOnly s t) (w : Latches)
    (hk : ∀ {P : Storage → Prop}, BusKept P → P s.storage → P t.storage) : Works w s t where
  frame :=
    { only := by unfold CpuOnly; rw [h]
      ime := fun _ => by rw [h]
      lock := fun _ => by rw [h]
      halted := fun _ => by rw [h]
      stopped := fun _ => by rw [h]
      kept := hk }
  cyc := by rw [h]
  fault := by rw [h]

/-- An access that touches one place, and keeps what every bus access keeps. -/
theorem Touches.works {p : Place} (h : Touches s p t) (w : Latches)
    (hk : ∀ {P : Storage → Prop}, BusKept P → P s.storage → P t.storage) : Works w s t :=
  DataOnly.works (by unfold DataOnly; rw [h.eq]) w hk

theorem RegsOnly.works (h : RegsOnly s t) (w : Latches) : Works w s t :=
  DataOnly.works (by unfold DataOnly; rw [h]) w fun _ hs => by rw [h]; exact hs

theorem RegsOnly.setReg (s : State) (r : Reg8) (v : Byte) : RegsOnly s (s.setReg r v) := by
  cases r <;> rfl

theorem RegsOnly.setPair (s : State) (rp : Rp) (v : Word) : RegsOnly s (s.setPair rp v) := by
  cases rp <;> rfl

theorem RegsOnly.setStackPair (s : State) (rp : Rp2) (v : Word) : RegsOnly s (s.setStackPair rp v) := by
  cases rp <;> rfl

namespace Works

theorem refl (w : Latches) (s : State) : Works w s s := RegsOnly.works (t := s) rfl w

/-- An update of registers, flags and pointers; of a record update it is seen by `rfl`. -/
theorem regs (h : Works w s t) (hu : RegsOnly t u := by exact rfl) : Works w s u := h.trans (hu.works w)

theorem setReg (h : Works w s t) (r : Reg8) (v : Byte) : Works w s (t.setReg r v) := h.regs (.setReg t r v)

theorem setIme (h : Works w s t) (hw : w.ime = true) (v : Bool) : Works w s { t with ime := v } :=
  h.trans { frame := { ime := by simp [hw] } }

theorem setHalted (h : Works w s t) (hw : w.halted = true) (v : Bool) : Works w s { t with halted := v } :=
  h.trans { frame := { halted := by simp [hw] } }

theorem setStopped (h : Works w s t) (hw : w.stopped = true) (v : Bool) :
    Works w s { t with stopped := v } :=
  h.trans { frame := { stopped := by simp [hw] } }

/-! ## Ends of an operation -/

theorem latched (h : Works w s t) (k : Fault) : Faulted w s { t with fault := some k } :=
  h.faulted { frame := {}, cyc := rfl, fault := ⟨k, rfl⟩ }

theorem tick (h : Works w s t) {n : Nat} (hn : IsCost n) : Ticked w s (t.tick n) :=
  have ⟨h1, h6⟩ := of_decide_eq_true hn
  h.ticked { frame := {}, cyc := ⟨n, h1, h6, rfl⟩, fault := rfl }

end Works
end Sys2Proof.Machine
end

section
/-! PROOF. What the shared operations do to the control state, the counter and the storage. -/

namespace Sys2Proof.Machine

variable {w : Latches} {s t : State} {α : Type} {n : Nat}

/-! ## Bus accesses -/

theorem busRead_ends (w : Latches) (a : Word) (s : State) : (busRead a s).Ends w s (Works w s) := by
  have hk : ∀ {P : Storage → Prop}, BusKept P → P s.storage → P (busRead a s).state.storage :=
    fun hP hs => hP.read a s hs
  obtain ⟨k, h⟩ | ⟨p, t, -, ht, -, ⟨v, h⟩ | h⟩ := busRead_cases a s <;> rw [h] at hk ⊢
  · exact (Works.refl w s).latched k
  · exact ht.works w hk
  · exact (ht.works w hk).latched _

theorem busWrite_ends (w : Latches) (a : Word) (v : Byte) (s : State) :
    (busWrite a v s).Ends w s (Works w s) := by
  have hk : ∀ {P : Storage → Prop}, BusKept P → P s.storage → P (busWrite a v s).state.storage :=
    fun hP hs => hP.write a v s hs
  obtain ⟨k, h⟩ | ⟨p, t, -, ht, h | h⟩ := busWrite_cases a v s <;> rw [h] at hk ⊢
  · exact (Works.refl w s).latched k
  · exact ht.works w hk
  · exact (ht.works w hk).latched _

namespace Works

variable (h : Works w s t)
include h

theorem busRead (a : Word) : (Machine.busRead a t).Ends w s (Works w s) :=
  h.ends (busRead_ends w a t)

theorem busWrite (a : Word) (v : Byte) : (Machine.busWrite a v t).Ends w s (Works w s) :=
  h.ends (busWrite_ends w a v t)

theorem memWrite16 (a v : Word) : (Machine.memWrite16 a v t).Ends w s (Works w s) :=
  (h.busWrite a (lowByte v)).bind fun _ _ hu => hu.busWrite (a + 1) (highByte v)

/-! ## Fetch and stack -/

theorem fetch8 : (Machine.fetch8 t).Ends w s (Works w s) :=
  (h.busRead t.pc).bind fun _ _ hu => hu.regs

theorem fetchInstr : (Machine.fetchInstr t).Ends w s (Works w s) :=
  h.fetch8.bind fun op u hu => by
    split
    · exact hu
    · exact hu.fetch8.bind fun _ _ hv => hv
    · exact hu.fetch8.bind fun _ _ hv => hv.fetch8.bind fun _ _ hx => hx

theorem pushByte (v : Byte) : (Machine.pushByte v t).Ends w s (Works w s) :=
  (h.regs (u := { t with sp := t.sp - 1 })).busWrite (t.sp - 1) v

theorem push16 (v : Word) : (Machine.push16 v t).Ends w s (Works w s) :=
  (h.pushByte (highByte v)).bind fun _ _ hu => hu.pushByte (lowByte v)

theorem popByte : (Machine.popByte t).Ends w s (Works w s) :=
  (h.busRead t.sp).bind fun _ _ hu => hu.regs

theorem pop16 : (Machine.pop16 t).Ends w s (Works w s) :=
  h.popByte.bind fun _ _ hu => hu.popByte.bind fun _ _ hv => hv

/-! ## Ends of an instruction -/

theorem raise (k : Fault) (Q : State → Prop) : (Machine.raise k t : Res α).Ends w s Q :=
  h.latched k

theorem done (hn : IsCost n) : (Machine.done n t).Ends w s (Ticked w s) :=
  h.tick hn

/-! ## Loads, arithmetic, bits -/

theorem loadReg (r : Reg8) (a : Word) (hn : IsCost n) : (Machine.loadReg r a n t).Ends w s (Ticked w s) :=
  (h.busRead a).bind fun v _ hu => (hu.setReg r v).done hn

theorem storeByte (a : Word) (v : Byte) (hn : IsCost n) :
    (Machine.storeByte a v n t).Ends w s (Ticked w s) :=
  (h.busWrite a v).bind fun _ _ hu => hu.done hn

theorem loadStepHl (step : Word) (hn : IsCost n) : (Machine.loadStepHl step n t).Ends w s (Ticked w s) :=
  (h.busRead t.hl).bind fun _ _ hu => hu.regs.done hn

theorem storeStepHl (step : Word) (hn : IsCost n) : (Machine.storeStepHl step n t).Ends w s (Ticked w s) :=
  (h.busWrite t.hl t.a).bind fun _ _ hu => hu.regs.done hn

theorem writeAcc (x : AluResult) (hn : IsCost n) : (Machine.writeAcc x n t).Ends w s (Ticked w s) :=
  h.regs.done hn

theorem writeFlags (f : Flags) (hn : IsCost n) : (Machine.writeFlags f n t).Ends w s (Ticked w s) :=
  h.regs.done hn

theorem writeReg (r : Reg8) (x : AluResult) (hn : IsCost n) :
    (Machine.writeReg r x n t).Ends w s (Ticked w s) :=
  ((h.regs (u := { t with f := x.f })).setReg r x.r).done hn

theorem withHl {k : Byte → State → Res Unit}
    (hk : ∀ v u, Works w s u → (k v u).Ends w s (Ticked w s)) :
    (Machine.withHl k t).Ends w s (Ticked w s) :=
  (h.busRead t.hl).bind hk

theorem modifyHl (g : Byte → AluResult) (hn : IsCost n) : (Machine.modifyHl g n t).Ends w s (Ticked w s) :=
  h.withHl fun v u hu => (hu.busWrite u.hl (g v).r).bind fun _ _ hx => hx.regs.done hn

theorem updateHl (g : Byte → Byte) (hn : IsCost n) : (Machine.updateHl g n t).Ends w s (Ticked w s) :=
  h.withHl fun v u hu => (hu.busWrite u.hl (g v)).bind fun _ _ hx => hx.done hn

theorem withIndex (b : Nat) {k : State → Res Unit}
    (hk : (k t).Ends w s (Ticked w s)) : (Machine.withIndex b k t).Ends w s (Ticked w s) := by
  unfold Machine.withIndex
  split
  · exact hk
  · exact h.raise _ _

/-! ## Control transfers -/

theorem jump (a : Word) (hn : IsCost n) : (Machine.jump a n t).Ends w s (Ticked w s) :=
  h.regs.done hn

theorem call (a : Word) (hn : IsCost n) : (Machine.call a n t).Ends w s (Ticked w s) :=
  (h.push16 t.pc).bind fun _ _ hu => hu.jump a hn

theorem returnTo (hn : IsCost n) : (Machine.returnTo n t).Ends w s (Ticked w s) :=
  h.pop16.bind fun v _ hu => hu.jump v hn

theorem returnFromInterrupt (hw : w.ime = true) : (Machine.returnFromInterrupt t).Ends w s (Works w s) :=
  h.pop16.bind fun v u hu => (hu.regs (u := { u with pc := v })).setIme hw true

theorem ifCond (cc : Cond) {k : State → Res Unit} (hn : IsCost n) (hk : (k t).Ends w s (Ticked w s)) :
    (Machine.ifCond cc k n t).Ends w s (Ticked w s) := by
  unfold Machine.ifCond
  split
  · exact hk
  · exact h.done hn

end Works
end Sys2Proof.Machine
end

section
/-! PROOF. What every instruction does to the control state, the counter and the storage: `ControlStateFrame`. -/

namespace Sys2Proof

/-- The control latches an instruction writes (R31, R34, R35). -/
def Instr.latches : Instr → Machine.Latches
  | .di | .ei | .reti => ⟨true, false, false, false⟩
  | .halt => ⟨false, false, true, false⟩
  | .stop _ => ⟨false, false, false, true⟩
  | _ => .none

theorem Instr.latches_lock (i : Instr) : i.latches.lock = false := by
  unfold Instr.latches; split <;> rfl

theorem Instr.latches_ime {i : Instr} (hdi : i ≠ .di) (hei : i ≠ .ei) (hreti : i ≠ .reti) :
    i.latches.ime = false := by
  unfold Instr.latches
  split
  case h_1 | h_2 | h_3 => contradiction
  all_goals rfl

theorem Instr.latches_halted {i : Instr} (h : i ≠ .halt) : i.latches.halted = false := by
  unfold Instr.latches
  split
  case h_4 => contradiction
  all_goals rfl

theorem Instr.latches_stopped {i : Instr} (h : ∀ pad, i ≠ .stop pad) : i.latches.stopped = false := by
  unfold Instr.latches
  split
  case h_5 pad => exact absurd rfl (h pad)
  all_goals rfl

end Sys2Proof

namespace Sys2Proof.Machine

/-- Every instruction but the 0xCB entry completes with 1 to 6 cycles or raises, and writes its latches alone. -/
theorem exec_ended_of_ne {i : Instr} (hi : i ≠ .prefixCb) (s : State) : Ended i.latches s (exec i s) := by
  have h := Works.refl i.latches s
  cases i with
  | prefixCb => exact absurd rfl hi
  -- 8-bit loads and stores
  | ldRR _ _ | ldRD8 _ _ => exact .finish ((h.setReg _ _).done rfl)
  | ldRHl _ | ldABc | ldADe | ldAA16 _ | ldhAA8 _ | ldAC => exact .finish (h.loadReg _ _ rfl)
  | ldHlR _ | ldHlD8 _ | ldBcA | ldDeA | ldA16A _ | ldhA8A _ | ldCA => exact .finish (h.storeByte _ _ rfl)
  | ldAHlInc | ldAHlDec => exact .finish (h.loadStepHl _ rfl)
  | ldHlIncA | ldHlDecA => exact .finish (h.storeStepHl _ rfl)
  -- 16-bit loads and the stack
  | ldRpD16 rp _ | incRp rp | decRp rp => exact .finish ((h.regs (.setPair s rp _)).done rfl)
  | ldA16Sp _ => exact .finish ((h.memWrite16 _ _).bind fun _ _ hu => hu.done rfl)
  | ldSpHl | ldHlSpE _ | addHlRp _ | addSpE _ => exact .finish (h.regs.done rfl)
  | push _ | pushAf => exact .finish ((h.push16 _).bind fun _ _ hu => hu.done rfl)
  | pop rp => exact .finish (h.pop16.bind fun _ u hu => (hu.regs (.setStackPair u rp _)).done rfl)
  | popAf => exact .finish (h.pop16.bind fun _ _ hu => hu.regs.done rfl)
  -- the accumulator
  | addAR _ | adcAR _ | subR _ | sbcAR _ | andR _ | xorR _ | orR _
  | addAD8 _ | adcAD8 _ | subD8 _ | sbcAD8 _ | andD8 _ | xorD8 _ | orD8 _
  | daa | cpl | rlca | rrca | rla | rra => exact .finish (h.writeAcc _ rfl)
  | addAHl | adcAHl | subHl | sbcAHl | andHl | xorHl | orHl =>
    exact .finish (h.withHl fun _ _ hu => hu.writeAcc _ rfl)
  | cpR _ | cpD8 _ | scf | ccf => exact .finish (h.writeFlags _ rfl)
  | cpHl => exact .finish (h.withHl fun _ _ hu => hu.writeFlags _ rfl)
  -- INC, DEC and the secondary table
  | incR r | decR r | rlcR r | rrcR r | rlR r | rrR r | slaR r | sraR r | swapR r | srlR r =>
    exact .finish (h.writeReg r _ rfl)
  | incHl | decHl | rlcHl | rrcHl | rlHl | rrHl | slaHl | sraHl | swapHl | srlHl =>
    exact .finish (h.modifyHl _ rfl)
  | bitBR b _ => exact .finish (h.withIndex b (h.writeFlags _ rfl))
  | bitBHl b => exact .finish (h.withIndex b (h.withHl fun _ _ hu => hu.writeFlags _ rfl))
  | resBR b r | setBR b r => exact .finish (h.withIndex b ((h.setReg r _).done rfl))
  | resBHl b | setBHl b => exact .finish (h.withIndex b (h.updateHl _ rfl))
  -- control transfers
  | jpA16 _ | jpHl | jrE _ => exact .finish (h.jump _ rfl)
  | jpCcA16 cc _ | jrCcE cc _ => exact .finish (h.ifCond cc rfl (h.jump _ rfl))
  | callA16 _ => exact .finish (h.call _ rfl)
  | callCcA16 cc _ => exact .finish (h.ifCond cc rfl (h.call _ rfl))
  | ret => exact .finish (h.returnTo rfl)
  | reti => exact .finish ((h.returnFromInterrupt rfl).bind fun _ _ hu => hu.done rfl)
  | retCc cc => exact .finish (h.ifCond cc rfl (h.returnTo rfl))
  | rstT t => exact .finish (h.withIndex t (h.call _ rfl))
  -- the rest
  | nop => exact .finish (h.done rfl)
  | halt => exact .finish ((h.setHalted rfl true).done rfl)
  | stop _ => exact .finish ((h.setStopped rfl true).done rfl)
  | di | ei => exact .finish ((h.setIme rfl _).done rfl)
  | illegalD3 | illegalDB | illegalDD | illegalE3 | illegalE4 | illegalEB | illegalEC | illegalED
  | illegalF4 | illegalFC | illegalFD => exact .finish (h.raise _ _)


/-! ## The secondary table -/

/-- The 0xCB entry runs the instruction that the decoder reads from the second byte (R102, R115). -/
theorem cbDispatch_eq_exec (op2 : Byte) (s : State) : cbDispatch op2 s = exec (decodeCb op2) s := by
  unfold cbDispatch decodeCb
  generalize fieldX op2 = x, Reg8.ofCode (fieldZ op2) = r, fieldY op2 = y
  obtain _ | _ | _ | x := x
  case zero =>
    -- the rotates and shifts, by the eight values of the field `y`
    obtain _ | _ | _ | _ | _ | _ | _ | y := y <;> cases r <;> rfl
  all_goals cases r <;> rfl

theorem exec_prefixCb_of_fetch {op2 : Byte} {s t : State} (h : fetch8 s = .ok op2 t) :
    exec .prefixCb s = exec (decodeCb op2) t := by
  change execPrefixCb s = _
  rw [execPrefixCb, h]
  exact cbDispatch_eq_exec op2 t

theorem decodeCb_ne_prefixCb (op2 : Byte) : decodeCb op2 ≠ .prefixCb := by
  unfold decodeCb
  split
  case h_1 | h_2 => split <;> nofun
  all_goals nofun

/-- No instruction of the secondary table writes a control latch. -/
theorem decodeCb_latches (op2 : Byte) : (decodeCb op2).latches = .none := by
  unfold decodeCb
  split
  case h_1 | h_2 => split <;> rfl
  all_goals rfl

theorem exec_prefixCb_ended (s : State) : Ended .none s (exec .prefixCb s) := by
  obtain ⟨op2, t, hf, ht⟩ | ⟨t, hf, ht⟩ := (Works.refl .none s).fetch8.elim
  · rw [exec_prefixCb_of_fetch hf]
    exact ht.ended (decodeCb_latches op2 ▸ exec_ended_of_ne (decodeCb_ne_prefixCb op2) t)
  · have hexec : exec .prefixCb s = .next t := by
      change execPrefixCb s = _
      rw [execPrefixCb, hf]
    exact ⟨t, hexec, .inr ht⟩

/-- Every instruction completes with 1 to 6 cycles or raises, and writes its own latches alone. -/
theorem exec_ended (i : Instr) (s : State) : Ended i.latches s (exec i s) := by
  by_cases hi : i = .prefixCb
  · rw [hi]; exact exec_prefixCb_ended s
  · exact exec_ended_of_ne hi s

/-! ## The fields of a frame -/

variable {w : Latches} {s t : State}

theorem CpuOnly.bus (h : CpuOnly s t) : t.bus = s.bus := by rw [h]
theorem CpuOnly.cfg (h : CpuOnly s t) : t.cfg = s.cfg := by rw [h]
theorem CpuOnly.queue (h : CpuOnly s t) : t.queue = s.queue := by rw [h]
theorem CpuOnly.inputs (h : CpuOnly s t) : t.inputs = s.inputs := by rw [h]
theorem CpuOnly.freeRun (h : CpuOnly s t) : t.freeRun = s.freeRun := by rw [h]
theorem CpuOnly.turn (h : CpuOnly s t) : t.turn = s.turn := by rw [h]
theorem CpuOnly.reply (h : CpuOnly s t) : t.reply = s.reply := by rw [h]

/-- The state an outcome answers is that of its end. -/
theorem Ended.of_next {o : Out} (h : Ended w s o) (ho : o = .next t) : Ticked w s t ∨ Faulted w s t := by
  obtain ⟨u, hu, hs⟩ := h
  cases hu.symm.trans ho
  exact hs

/-- Settles O19: the frame of `exec_ended`, with the masks that `Instr.latches` gives. -/
theorem controlStateFrame : Obligations.ControlStateFrame := by
  intro i s t ht
  have hend := (exec_ended i s).of_next ht
  have hframe : CpuFrame i.latches s t := hend.elim Ticked.frame Faulted.frame
  have hfault : t.fault = s.fault ∨ ∃ k, t.fault = some k := hend.imp Ticked.fault Faulted.fault
  obtain ⟨honly, hime, hlock, hhalted, hstopped, -⟩ := hframe
  exact ⟨honly.bus, honly.cfg, hlock i.latches_lock, honly.queue, honly.inputs, honly.freeRun, honly.turn,
    honly.reply, fun hdi hei hreti => hime (Instr.latches_ime hdi hei hreti),
    fun h => hhalted (Instr.latches_halted h), fun h => hstopped (Instr.latches_stopped h), hfault⟩

end Sys2Proof.Machine
end

section
/-! PROOF. What a CPU step does to the control state, the counter and the storage: `CpuStepFrame` (10_state.md R30,
R40, 60_exceptions.md R413). -/

namespace Sys2Proof.Machine

variable {s t : State}

/-- What a step of a CPU that is not held does: it completes or raises, and a completed step leaves the lock as it
was, or free after an Interrupt-Service. -/
structure CpuStepped (s t : State) : Prop where
  ended : Ticked .all s t ∨ Faulted .all s t
  lock : t.fault = none → t.lock = s.lock ∨ t.lock = none

theorem CpuStepped.frame (h : CpuStepped s t) : CpuFrame .all s t := h.ended.elim Ticked.frame Faulted.frame

/-- From a state with no fault, the counter tells a completed step from a faulted one (R30, R421). -/
theorem counter_of_end {w : Latches} (hs : s.fault = none) (h : Ticked w s t ∨ Faulted w s t) :
    (t.fault = none → ∃ n, 1 ≤ n ∧ n ≤ 6 ∧ t.cyc = s.cyc + BitVec.ofNat 64 n) ∧
    (t.fault ≠ none → t.cyc = s.cyc) := by
  obtain h | h := h
  · exact ⟨fun _ => h.cyc, fun ht => absurd (h.fault.trans hs) ht⟩
  · obtain ⟨k, hk⟩ := h.fault
    exact ⟨fun ht => by simp [hk] at ht, fun _ => h.cyc⟩

/-- The outcome is a next state that such a step can reach. -/
def StepsTo (s : State) (o : Out) : Prop := ∃ t, o = .next t ∧ CpuStepped s t

theorem Ended.stepsTo {w : Latches} {o : Out} (h : Ended w s o) (hw : w.lock = false) : StepsTo s o := by
  obtain ⟨t, ho, hend⟩ := h
  have hframe : CpuFrame w s t := hend.elim Ticked.frame Faulted.frame
  exact ⟨t, ho, hend.imp Ticked.toAll Faulted.toAll, fun _ => .inl (hframe.lock hw)⟩

/-- A step that goes on from a state in which the CPU has written its latches, the lock apart. -/
theorem StepsTo.after {w : Latches} {o : Out} (h : Works w s t) (hw : w.lock = false) :
    StepsTo t o → StepsTo s o
  | ⟨u, ho, hend, hlock⟩ =>
    ⟨u, ho, hend.imp h.toAll.ticked h.toAll.faulted, fun hf => h.frame.lock hw ▸ hlock hf⟩

/-! ## Interrupt-Service and Normal-Dispatch -/

/-- The state in which Interrupt-Service pushes PC: its first lines take the lock and clear IME and the request
(R413). -/
def State.entered (s : State) (k : Source) : State :=
  ({ s.lockBy .cpu with ime := false } : State).clearRequest k

theorem entered_works (s : State) (k : Source) : Works .all s (s.entered k) :=
  { frame := { ime := nofun, lock := nofun } }

theorem unlockBy_works (s : State) (m : Master) : Works .all s (s.unlockBy m) := by
  unfold State.unlockBy
  split
  · exact { frame := { lock := nofun } }
  · exact .refl .all s

/-- Interrupt-Service pushes PC in the entered state and then jumps to the vector, which every source has. -/
theorem interruptService_eq (k : Source) (s : State) :
    interruptService k s = (push16 s.pc (s.entered k)).bind fun _ t =>
      .ok () ((({ t with pc := k.vector } : State).tick cyclesInterrupt).unlockBy .cpu) := by
  cases k <;> rfl

theorem tick_unlockBy (s : State) (n : Nat) (m : Master) :
    (s.tick n).unlockBy m = (s.unlockBy m).tick n := by
  by_cases h : s.lock = some m <;> simp [State.unlockBy, State.tick, h]

theorem interruptService_stepsTo (k : Source) (s : State) : StepsTo s (interruptService k s).finish := by
  rw [interruptService_eq]
  obtain ⟨_, u, hp, hu⟩ | ⟨u, hp, hu⟩ := ((Works.refl .none (s.entered k)).push16 s.pc).elim <;> rw [hp]
  · have hlock : u.lock = some .cpu := hu.frame.lock rfl
    have hjump : Works .all s { u with pc := k.vector } := ((entered_works s k).trans hu.toAll).regs
    refine ⟨_, rfl, ?_, fun _ => .inr (by simp [hlock])⟩
    rw [tick_unlockBy]
    exact .inl ((hjump.trans (unlockBy_works _ _)).tick rfl)
  · obtain ⟨j, hj⟩ := hu.fault
    exact ⟨u, rfl, .inr ((entered_works s k).faulted hu.toAll), by simp [hj]⟩

theorem normalDispatch_stepsTo (s : State) : StepsTo s (normalDispatch s) := by
  obtain ⟨i, u, hf, hu⟩ | ⟨u, hf, hu⟩ := (Works.refl .none s).fetchInstr.elim <;> rw [normalDispatch, hf]
  · exact ((exec_ended i u).stepsTo i.latches_lock).after hu rfl
  · exact Ended.stepsTo ⟨u, rfl, .inr hu⟩ rfl

theorem dispatchStep_stepsTo (s : State) : StepsTo s (dispatchStep s) := by
  unfold dispatchStep
  split
  · exact interruptService_stepsTo _ s
  · exact normalDispatch_stepsTo s

/-! ## The CPU step -/

/-- A step of a CPU that is not held: idle for one cycle, or a dispatch, a halted CPU being woken first (R40). -/
theorem cpuStep_stepsTo (h : s.cpuHeld = false) : StepsTo s (cpuStep s) := by
  unfold cpuStep
  rw [if_neg (by simp [h])]
  split
  · split
    · exact Ended.stepsTo (w := .none) ⟨_, rfl, .inl ((Works.refl _ s).tick rfl)⟩ rfl
    · exact (dispatchStep_stepsTo _).after
        ((Works.refl ⟨false, false, true, false⟩ s).setHalted rfl false) rfl
  · exact dispatchStep_stepsTo s

theorem State.cpuHeld_eq_false (hf : s.fault = none) (hs : s.stopped = false)
    (hl : s.lock = none ∨ s.lock = some .cpu) : s.cpuHeld = false := by
  rcases hl with hl | hl <;> simp [State.cpuHeld, State.lockFreeFor, hf, hs, hl]

/-- A CPU step, held or not, answers a next state within the CPU's frame. -/
theorem cpuStep_frame (s : State) : ∃ t, cpuStep s = .next t ∧ CpuFrame .all s t ∧
    (s.cpuHeld = false → CpuStepped s t) := by
  cases h : s.cpuHeld with
  | true => exact ⟨s, cpuStep_of_held h, (Works.refl .all s).frame, nofun⟩
  | false =>
    obtain ⟨t, ht, hstep⟩ := cpuStep_stepsTo h
    exact ⟨t, ht, hstep.frame, fun _ => hstep⟩

/-! ## Indexes out of range -/

theorem withIndex_of_le {b : Nat} (hb : 8 ≤ b) (k : State → Res Unit) (s : State) :
    withIndex b k s = raise (.invalidOperand b) s :=
  if_neg (by omega)

/-- The instructions with an index latch InvalidOperand for one of 8 or more (R110). -/
theorem exec_index_of_le {b : Nat} (hb : 8 ≤ b) (r : Reg8) (s : State) :
    ∀ i ∈ [Instr.bitBR b r, .bitBHl b, .resBR b r, .resBHl b, .setBR b r, .setBHl b, .rstT b],
      exec i s = .next { s with fault := some (.invalidOperand b) } := by
  simp [exec, execBitBR, execBitBHl, execResBR, execResBHl, execSetBR, execSetBHl, execRstT,
    withIndex_of_le hb, raise]

/-- Settles O29: the ends of `exec_ended`, the frame of a CPU step, and an index out of range. -/
theorem cpuStepFrame : Obligations.CpuStepFrame := by
  refine ⟨fun i s hf => ?_, fun s => ?_, fun s b r hb => exec_index_of_le hb r s⟩
  · obtain ⟨t, ht, hend⟩ := exec_ended i s
    exact ⟨t, ht, counter_of_end hf hend⟩
  · obtain ⟨t, ht, hframe, hstep⟩ := cpuStep_frame s
    have honly := hframe.only
    refine ⟨t, ht, honly.bus, honly.cfg, honly.queue, honly.inputs, honly.freeRun, honly.turn, honly.reply,
      fun hf hs hl => ?_⟩
    obtain ⟨hend, hlock⟩ := hstep (State.cpuHeld_eq_false hf hs hl)
    obtain ⟨hcost, hraised⟩ := counter_of_end hf hend
    exact ⟨fun ht => ⟨hlock ht, hcost ht⟩, hraised⟩

end Sys2Proof.Machine
end

section
/-! PROOF. What every bus access keeps every step keeps: `StepKeepsCanonicalStorage`; and reset meets the
invariants: `ResetMeetsInvariants` (10_state.md R20, R41, 20_memory.md R89). -/

namespace Sys2Proof.Machine

variable {P : Storage → Prop} {s t : State}

/-- The storage after the outcome has the property. -/
def KeptBy (P : Storage → Prop) (o : Out) : Prop := ∀ t, o = .next t → P t.storage

theorem next_keptBy (ht : P t.storage) : KeptBy P (.next t) := by
  rintro _ ⟨⟩
  exact ht

/-! ## The moves -/

theorem cpuStep_keptBy (hP : BusKept P) (hs : P s.storage) : KeptBy P (cpuStep s) := by
  obtain ⟨t, ht, hframe, -⟩ := cpuStep_frame s
  rw [ht]
  exact next_keptBy (hframe.kept hP hs)

theorem answer_keptBy (hs : P s.storage) (r : Reply) : KeptBy P (answer r s) := next_keptBy hs

theorem masterAccess_keptBy {α : Type} (m : Nat) {op : State → Res α} (reply : α → Reply) (hs : P s.storage)
    (hop : P (op s).state.storage) : KeptBy P (masterAccess m op reply s) := by
  unfold masterAccess
  split
  · cases h : op s with
    | ok v t => rw [h] at hop; exact answer_keptBy hop _
    | raised t => rw [h] at hop; exact next_keptBy hop
  · exact answer_keptBy hs _

theorem queueWritten_keptBy (hs : P s.storage) (x : Except Fault (List Event)) :
    KeptBy P (queueWritten x s) := by
  cases x <;> exact next_keptBy hs

theorem queueTaken_keptBy (hs : P s.storage) (x : Except Fault (Event × List Event)) :
    KeptBy P (queueTaken x s) := by
  cases x <;> exact next_keptBy hs

theorem queueSeen_keptBy (hs : P s.storage) (x : Except Fault Event) : KeptBy P (queueSeen x s) := by
  cases x <;> exact next_keptBy hs

theorem setFlag_storage (s : State) (k : Nat) : (s.setFlag k).storage = s.storage := by
  simp [State.storage]

theorem clearFlag_storage (s : State) (k : Nat) : (s.clearFlag k).storage = s.storage := by
  simp [State.storage]

theorem unlockBy_storage (s : State) (m : Master) : (s.unlockBy m).storage = s.storage := by
  simp [State.storage]

/-- A move reaches storage by bus accesses alone. -/
theorem runMove_keptBy (hP : BusKept P) (hs : P s.storage) (m : Move) : KeptBy P (runMove m s) := by
  cases m with
  | cpuStep => exact cpuStep_keptBy hP hs
  | setFlag k => exact answer_keptBy ((setFlag_storage s k).symm ▸ hs) _
  | clearFlag k => exact answer_keptBy ((clearFlag_storage s k).symm ▸ hs) _
  | busRead m a => exact masterAccess_keptBy m _ hs (hP.read a s hs)
  | busWrite m a v => exact masterAccess_keptBy m _ hs (hP.write a v s hs)
  | lock m =>
    rw [runMove]
    split
    · exact answer_keptBy (s := s.lockBy _) hs _
    · exact answer_keptBy hs _
  | unlock m => exact answer_keptBy ((unlockBy_storage s (.dev m)).symm ▸ hs) _
  | schedule _ | push _ => exact queueWritten_keptBy hs _
  | executeNext | pop => exact queueTaken_keptBy hs _
  | front => exact queueSeen_keptBy hs _
  | isEmpty | isFull => exact answer_keptBy hs _

theorem takeMove_storage (s : State) : s.takeMove.2.storage = s.storage := by
  unfold State.takeMove
  split
  · rfl
  · split <;> rfl

/-- What every bus access keeps every step keeps. -/
theorem BusKept.step (hP : BusKept P) (hs : P s.storage) (ht : step s = .next t) : P t.storage := by
  by_cases hf : s.fault = none
  · rw [step_of_no_fault hf] at ht
    exact runMove_keptBy hP ((takeMove_storage s).symm ▸ hs) _ t ht
  · rw [step_of_fault hf] at ht
    exact next_keptBy hs t ht

/-! ## The canonical form -/

/-- `State.canonical`, of the storage. -/
def Storage.canonical (m : Storage) : Prop := m.mem.wf = true ∧ m.devices.wf = true

theorem Storage.canonical_busKept : BusKept Storage.canonical :=
  ⟨busRead_canonical, busWrite_canonical⟩

/-- Settles O30: every bus access keeps the canonical form, and so every step. -/
theorem stepKeepsCanonicalStorage : Obligations.StepKeepsCanonicalStorage :=
  fun _ _ hs ht => Storage.canonical_busKept.step hs ht

/-! ## Reset -/

theorem State.queueOk_of_nil (h : s.queue = []) : s.queueOk := by
  simp [State.queueOk, h, Queue.heapOrdered]

theorem State.lockOk_of_free (h : s.lock = none) : s.lockOk := by
  simp [State.lockOk, h]

theorem resetWith_invariants {r : ResetValues} {p : Platform} (hm : p.mem0.wf = true)
    (hd : p.devices0.wf = true) (hq : r.queue = []) (hl : r.lock = none) :
    let s := State.resetWith r p
    s.canonical ∧ s.queueOk ∧ s.lockOk :=
  ⟨⟨hm, hd⟩, State.queueOk_of_nil hq, State.lockOk_of_free hl⟩

/-- Settles O33: the empty list is canonical and an empty queue a heap; the model's reset is a case of it. -/
theorem resetMeetsInvariants : Obligations.ResetMeetsInvariants :=
  ⟨fun _ _ => resetWith_invariants, resetWith_invariants rfl rfl rfl rfl⟩

end Sys2Proof.Machine
end

section
/-! PROOF. Halves, pairs and the byte of F: `RegisterHalvesAndPairs` and `FlagRegisterLayout` (10_state.md R22,
R25, R26, 41_load16_stack.md R179). -/

namespace Sys2Proof.Machine

/-- The bits of F, as Booleans and as a number. -/
theorem Flags.toByte_layout : ∀ z n h c : Bool,
    let v := Flags.toByte ⟨z, n, h, c⟩
    v.toNat = 0x80 * bitNat z + 0x40 * bitNat n + 0x20 * bitNat h + 0x10 * bitNat c ∧
    v.getLsbD 7 = z ∧ v.getLsbD 6 = n ∧ v.getLsbD 5 = h ∧ v.getLsbD 4 = c ∧ v.toNat % 16 = 0 := by
  decide

/-- Settles O15, by the sixteen values of F. -/
theorem flagRegisterLayout : Obligations.FlagRegisterLayout :=
  fun ⟨z, n, h, c⟩ => Flags.toByte_layout z n h c

theorem bitNat_getLsbD (v : Byte) (k : Nat) : bitNat (v.getLsbD k) = v.toNat / 2 ^ k % 2 := by
  rw [BitVec.getLsbD, Nat.testBit_eq_decide_div_mod_eq]
  unfold bitNat
  split <;> simp_all

/-- A byte stored in F reads back with its low nibble cleared (R179). -/
theorem Flags.ofByte_toByte_toNat (v : Byte) : (Flags.ofByte v).toByte.toNat = v.toNat / 16 * 16 := by
  obtain ⟨hF, -⟩ := flagRegisterLayout (Flags.ofByte v)
  have hv := v.isLt
  rw [hF]
  simp only [Flags.ofByte, bitNat_getLsbD]
  omega

/-- Settles O14: the laws of `wordOf`, `highByte` and `lowByte`, and `reg_setReg`. -/
theorem registerHalvesAndPairs : Obligations.RegisterHalvesAndPairs := by
  intro s v r x
  have hhi := highByte_toNat v
  have hlo := lowByte_toNat v
  refine ⟨wordOf_toNat _ _, wordOf_toNat _ _, wordOf_toNat _ _, wordOf_toNat _ _, ⟨hhi, hlo, rfl⟩,
    ⟨hhi, hlo, rfl⟩, ⟨hhi, hlo, rfl⟩, ⟨hhi, ?_, rfl⟩, fun r' => State.reg_setReg s r r' x, ?_⟩
  · rw [State.setAf_f, Flags.ofByte_toByte_toNat, hlo]
  · cases r <;> rfl

end Sys2Proof.Machine
end

section
/-! PROOF. A step that dispatches runs the instruction that the bytes at PC decode to: `StepRunsDecodedInstruction`
(10_state.md R28, R40, 30_encoding.md R102). -/

namespace Sys2Proof.Machine

variable {s : State} {i : Instr}

/-- `s` with PC moved past `n` bytes. -/
def State.past (s : State) (n : Nat) : State := { s with pc := s.pc + BitVec.ofNat 16 n }

theorem State.past_past (s : State) (m n : Nat) : (s.past m).past n = s.past (m + n) := by
  simp [State.past, BitVec.add_assoc, BitVec.ofNat_add]

theorem State.holds_past {a : Word} {bytes : List Byte} (n : Nat) (h : s.holds a bytes) :
    (s.past n).holds a bytes := by
  induction bytes generalizing a with
  | nil => trivial
  | cons v vs ih => exact ⟨State.reads_congr (s := s) rfl rfl rfl rfl rfl h.1, ih h.2⟩

/-- Fetching the first of the bytes at PC leaves the rest at PC. -/
theorem fetch8_of_holds {v : Byte} {vs : List Byte} (h : s.holds s.pc (v :: vs)) :
    fetch8 s = .ok v (s.past 1) ∧ (s.past 1).holds (s.past 1).pc vs :=
  ⟨fetch8_of_reads h.1, State.holds_past 1 h.2⟩

theorem fetch8_past_of_holds {n : Nat} {v : Byte} {vs : List Byte}
    (h : (s.past n).holds (s.past n).pc (v :: vs)) :
    fetch8 (s.past n) = .ok v (s.past (n + 1)) ∧ (s.past (n + 1)).holds (s.past (n + 1)).pc vs := by
  rw [← State.past_past]
  exact fetch8_of_holds h

/-- The fetch of bytes that decode to an instruction gives that instruction, with PC after the last byte. -/
theorem fetchInstr_of_holds {op : Byte} {rest : List Byte} (hop : op ≠ prefixByte)
    (hd : decode (op :: rest) = .ok (i, [])) (h : s.holds s.pc (op :: rest)) :
    fetchInstr s = .ok i (s.past (op :: rest).length) := by
  obtain ⟨hf, h1⟩ := fetch8_of_holds h
  simp only [fetchInstr, hf, Res.bind_ok]
  simp only [decode, if_neg hop] at hd
  split at hd
  case h_1 hn =>
    cases hd
    simp [hn]
  case h_2 n1 _ hn =>
    cases hd
    have hf1 : fetch8 (s.past 1) = .ok n1 (s.past 2) := (fetch8_past_of_holds h1).1
    simp [hn, hf1]
  case h_3 n1 n2 _ hn =>
    cases hd
    obtain ⟨hf1, h2⟩ : fetch8 (s.past 1) = .ok n1 (s.past 2) ∧ (s.past 2).holds (s.past 2).pc [n2] :=
      fetch8_past_of_holds h1
    have hf2 : fetch8 (s.past 2) = .ok n2 (s.past 3) := (fetch8_past_of_holds h2).1
    simp [hn, hf1, hf2]
  case h_4 => cases hd

/-- 0xCB is fetched alone (R102). -/
theorem fetchInstr_prefixByte {rest : List Byte} (h : s.holds s.pc (prefixByte :: rest)) :
    fetchInstr s = .ok .prefixCb (s.past 1) := by
  have hn : immediateCount prefixByte = 0 := by decide
  have hi : decodeBase prefixByte 0 0 = .prefixCb := by decide
  simp only [fetchInstr, (fetch8_of_holds h).1, Res.bind_ok, hn, hi]

/-- The bytes at PC are fetched, and the instruction that they decode to is run. -/
theorem normalDispatch_of_holds {bytes : List Byte} (hd : decode bytes = .ok (i, []))
    (h : s.holds s.pc bytes) : normalDispatch s = exec i (s.past bytes.length) := by
  cases bytes with
  | nil => cases hd
  | cons op rest =>
    by_cases hop : op = prefixByte
    · subst hop
      rw [normalDispatch, fetchInstr_prefixByte h]
      simp only [decode, if_pos] at hd
      cases rest with
      | nil => cases hd; rfl
      | cons op2 rest =>
        cases hd
        obtain ⟨-, h1⟩ := fetch8_of_holds h
        exact exec_prefixCb_of_fetch (fetch8_past_of_holds h1).1
    · rw [normalDispatch, fetchInstr_of_holds hop hd h]

/-- Settles O20: a step that dispatches is the Normal-Dispatch of those bytes. -/
theorem stepRunsDecodedInstruction : Obligations.StepRunsDecodedInstruction := by
  intro s bytes i hs hd hb
  rw [step_of_dispatches hs]
  exact normalDispatch_of_holds hd hb

end Sys2Proof.Machine
end

section
/-! PROOF. The decoder and the entry points: `FirstMatchDecoder`, `BusOperations`, `DeviceEntryPoints` and
`BusWriteFrame` (20_memory.md R62 to R72, R89). -/

namespace Sys2Proof.Machine

variable {s t : State} {a : Word} {v : Byte} {c : Connection} {p : Place}

/-! ## The decoder -/

theorem Connection.claims_iff : c.claims a = true ↔ c.startAddr ≤ a ∧ a ≤ c.endAddr := by
  simp [Connection.claims]

/-- A decoded connection stands in the list and claims the address. -/
theorem mem_and_claims_of_decode {bus : List Connection} (h : decodeAddr bus a = some c) :
    c ∈ bus ∧ c.startAddr ≤ a ∧ a ≤ c.endAddr := by
  have hc := List.find?_some (p := fun d : Connection => d.claims a) h
  exact ⟨List.mem_of_find?_eq_some h, Connection.claims_iff.1 hc⟩

/-- Settles O5: `find?` answers the first element that its test accepts. -/
theorem firstMatchDecoder : Obligations.FirstMatchDecoder := by
  intro bus a
  simp only [decodeAddr, List.find?_eq_some_iff_append, List.find?_eq_none, Bool.not_eq_true',
    ← Bool.not_eq_true, Connection.claims_iff, and_assoc, implies_true, and_self]

/-! ## The bus operations -/

theorem busRead_of_decode (h : decodeAddr s.bus a = some c) : busRead a s = c.read a s := by
  simp [busRead, h]

theorem busWrite_of_decode (v : Byte) (h : decodeAddr s.bus a = some c) :
    busWrite a v s = c.write a v s := by
  simp [busWrite, h]

/-- Settles O6, by the two answers of the decoder. -/
theorem busOperations : Obligations.BusOperations :=
  fun _ _ v => ⟨fun h => ⟨busRead_unmapped h, busWrite_unmapped v h⟩,
    fun _ h => ⟨busRead_of_decode h, busWrite_of_decode v h⟩⟩

/-! ## The ports -/

/-- A call of a platform's own entry point, by its status (R71). -/
theorem Connection.run_eq (c : Connection) (e : EntryPoint) (a : Word) (v : Byte) (s : State) :
    c.run e a v s =
      (if e.failing (s.device c.owner) a v = true then
        .raised ((s.setDevice c.owner (e.after (s.device c.owner) a v)).latched (.deviceFailure a))
      else .ok (e.reply (s.device c.owner) a v) (s.setDevice c.owner (e.after (s.device c.owner) a v))) :=
  rfl

theorem Connection.place_failing (h : c.port = .failing) (a : Word) :
    c.place a = .error (.deviceFailure a) := by
  simp [Connection.place, h]

/-- The ports that act on the byte at an offset in the owner's array (R81 to R83). -/
theorem Connection.place_cell (h : c.port = .rom ∨ c.port = .ram ∨ c.port = .clearOnRead) (a : Word) :
    c.place a = .ok (.cell (c.owner.base + (a - c.startAddr).toNat)) := by
  obtain h | h | h := h <;> simp [Connection.place, h]

/-- A read changes nothing unless the port clears what it reads or is the platform's own. -/
theorem Connection.read_ok_state (hcl : c.port ≠ .clearOnRead) (hp : ∀ p, c.port ≠ .program p)
    (h : c.read a s = .ok v t) : t = s := by
  cases hpl : c.place a with
  | error k => rw [Connection.read_error hp hpl] at h; cases h
  | ok p =>
    rw [Connection.read_ok hp hpl, if_neg hcl] at h
    cases h
    rfl

theorem Connection.program_calls {p : DeviceProgram} (h : c.port = .program p) (a : Word) (v : Byte)
    (s : State) :
    let q := s.device c.owner
    c.read a s =
      (if p.read.failing q a 0x00 = true then
        .raised ((s.setDevice c.owner (p.read.after q a 0x00)).latched (.deviceFailure a))
      else .ok (p.read.reply q a 0x00) (s.setDevice c.owner (p.read.after q a 0x00))) ∧
    c.write a v s =
      (if p.write.failing q a v = true then
        .raised ((s.setDevice c.owner (p.write.after q a v)).latched (.deviceFailure a))
      else .ok () (s.setDevice c.owner (p.write.after q a v))) := by
  refine ⟨(Connection.read_program h a s).trans (c.run_eq _ a _ s), ?_⟩
  rw [Connection.write_program h, Connection.run_eq]
  split <;> rfl

theorem Connection.failing_calls (h : c.port = .failing) (a : Word) (v : Byte) (s : State) :
    c.read a s = .raised { s with fault := some (.deviceFailure a) } ∧
    c.write a v s = .raised { s with fault := some (.deviceFailure a) } := by
  have hp : ∀ p, c.port ≠ .program p := by simp [h]
  exact ⟨Connection.read_error hp (Connection.place_failing h a) s,
    Connection.write_error hp (Connection.place_failing h a) v s⟩

theorem Connection.clearOnRead_calls (h : c.port = .clearOnRead) (a : Word) (v : Byte) (s : State) :
    ∃ p, c.place a = .ok p ∧ c.read a s = .ok (s.at p) (s.put p 0x00) ∧
      c.write a v s = .ok () (s.put p v) := by
  have hp : ∀ p, c.port ≠ .program p := by simp [h]
  have hpl := Connection.place_cell (.inr (.inr h)) a
  refine ⟨_, hpl, ?_, ?_⟩
  · rw [Connection.read_ok hp hpl, if_pos h]
  · rw [Connection.write_ok hp hpl, if_neg (by simp [h])]

/-- Settles O7: the calls of each port, the laws of `setDevice`, and a program for every behaviour by
`EntryPoint.exists_of`. -/
theorem deviceEntryPoints : Obligations.DeviceEntryPoints := by
  refine ⟨fun s a v c hd => ?_, fun s o q => ?_, fun n rf rv rn wf wn => ?_⟩
  · simp only [busRead_of_decode hd, busWrite_of_decode v hd, State.placeOf_of_decode hd]
    refine ⟨fun p h => Connection.program_calls h a v s, fun h => Connection.failing_calls h a v s,
      fun h => ?_, fun hcl hp w t h => Connection.read_ok_state hcl hp h⟩
    obtain ⟨p, hpl, hr, hw⟩ := Connection.clearOnRead_calls h a v s
    exact ⟨p, by rw [hpl]; rfl, hr, hw⟩
  · exact ⟨State.setDevice_eq s o q, fun o' ho => State.device_setDevice_other s q ho,
      State.device_setDevice_same s o q⟩
  · obtain ⟨r, hr⟩ := EntryPoint.exists_of n (fun q a _ => rf q a) (fun q a _ => rv q a)
      fun q a _ => rn q a
    obtain ⟨w, hw⟩ := EntryPoint.exists_of n wf (fun _ _ _ => 0x00) wn
    refine ⟨⟨r, w⟩, fun q a v hq => ?_⟩
    obtain ⟨hrf, hrv, hrn⟩ := hr q a 0x00 hq
    obtain ⟨hwf, -, hwn⟩ := hw q a v hq
    exact ⟨hrf, hrv, hrn, hwf, hwn⟩

/-! ## What an access leaves alone -/

theorem State.content_setFault (s : State) (k : Option Fault) (p : Place) :
    State.content { s with fault := k } p = s.content p := by
  cases p <;> rfl

/-- Whether a read is quiet depends on the connection list and on what the place of the address holds. -/
theorem State.quietAt_of_content (hb : t.bus = s.bus)
    (h : ∀ p, s.placeOf a = some p → t.content p = s.content p) : t.quietAt a = s.quietAt a := by
  unfold State.quietAt
  rw [hb]
  cases hd : decodeAddr s.bus a with
  | none => rfl
  | some c =>
    change c.quiet a t = c.quiet a s
    rw [State.placeOf_of_decode hd] at h
    by_cases hc : ∃ q, c.port = .program q
    · obtain ⟨q, hc⟩ := hc
      have hdev : t.device c.owner = s.device c.owner :=
        h (.device c.owner) (by rw [Connection.place_program hc]; rfl)
      simp only [Connection.quiet, hc, hdev]
    · unfold Connection.quiet
      split
      case h_2 q hq => exact absurd ⟨q, hq⟩ hc
      all_goals rfl

/-- A read changes at most what the place of its address holds, and not that if it is quiet (R72). -/
theorem busRead_content (h : s.quietAt a = true ∨ s.placeOf a ≠ some p) :
    (busRead a s).state.content p = s.content p := by
  obtain ⟨k, hr⟩ | ⟨q, t, hq, ht, hquiet, hr⟩ := busRead_cases a s
  · rw [hr]; exact State.content_setFault s _ p
  · have hcontent : t.content p = s.content p := by
      obtain h | h := h
      · rw [hquiet h]
      · exact ht.content_other fun hpq => h (hpq ▸ hq)
    obtain ⟨v, hr⟩ | hr := hr <;> rw [hr]
    · exact hcontent
    · exact (State.content_setFault t _ p).trans hcontent

/-- A write changes at most what the place of its address holds. -/
theorem busWrite_content (v : Byte) (h : s.placeOf a ≠ some p) :
    (busWrite a v s).state.content p = s.content p := by
  obtain ⟨k, hw⟩ | ⟨q, t, hq, ht, hw⟩ := busWrite_cases a v s
  · rw [hw]; exact State.content_setFault s _ p
  · have hcontent : t.content p = s.content p := ht.content_other fun hpq => h (hpq ▸ hq)
    obtain hw | hw := hw <;> rw [hw]
    · exact hcontent
    · exact (State.content_setFault t _ p).trans hcontent

/-! ## The frame of a write -/

/-- A completed write has touched the place of its address alone. -/
theorem touches_of_busWrite (h : busWrite a v s = .ok () t) : ∃ p, s.placeOf a = some p ∧ Touches s p t := by
  obtain ⟨k, hk⟩ | ⟨p, u, hp, hu, hw | hw⟩ := busWrite_cases a v s
  · cases hk.symm.trans h
  · cases hw.symm.trans h
    exact ⟨p, hp, hu⟩
  · cases hw.symm.trans h

/-- A byte place gives back what was stored at it. -/
theorem State.at_put_byte (hp : ∀ o, p ≠ .device o) (v : Byte) (h : s.mem.wf = true) :
    (s.put p v).at p = v := by
  cases p with
  | cell k => exact Memory.read_write_same v h
  | ifReg | ieReg => rfl
  | device o => exact absurd rfl (hp o)

/-- The place of an address is the one its connection gives it. -/
theorem State.placeOf_eq_some :
    s.placeOf a = some p ↔ ∃ c, decodeAddr s.bus a = some c ∧ c.place a = .ok p := by
  unfold State.placeOf
  cases decodeAddr s.bus a with
  | none => simp
  | some c => cases h : c.place a <;> simp [h, Except.toOption]

/-- An address whose place is a byte reads as that byte. -/
theorem State.peek_of_placeOf (hp : ∀ o, p ≠ .device o) (h : s.placeOf a = some p) :
    s.peek a = some (s.at p) := by
  obtain ⟨c, hd, hpl⟩ := State.placeOf_eq_some.1 h
  have hc : ∀ q, c.port ≠ .program q := by
    intro q hq
    cases (Connection.place_program hq a).symm.trans hpl
    exact hp _ rfl
  rw [State.peek, busRead_of_decode hd, Connection.read_ok hc hpl]

/-- A completed write stores the byte at the place of its address, unless the port is ROM or the platform's own. -/
theorem busWrite_eq_put (hd : decodeAddr s.bus a = some c) (hrom : c.port ≠ .rom)
    (hprog : ∀ q, c.port ≠ .program q) (h : busWrite a v s = .ok () t) :
    ∃ p, s.placeOf a = some p ∧ (∀ o, p ≠ .device o) ∧ t = s.put p v := by
  rw [busWrite_of_decode v hd] at h
  cases hpl : c.place a with
  | error k => rw [Connection.write_error hprog hpl] at h; cases h
  | ok p =>
    rw [Connection.write_ok hprog hpl, if_neg hrom] at h
    cases h
    exact ⟨p, State.placeOf_eq_some.2 ⟨c, hd, hpl⟩, Connection.place_byte hprog hpl, rfl⟩

/-- Settles O11: a completed write touches one place, and stores the byte there unless the port is ROM or the
platform's own. -/
theorem busWriteFrame : Obligations.BusWriteFrame := by
  intro s t a v h
  obtain ⟨p, hp, ht⟩ := touches_of_busWrite h
  have hbus : t.bus = s.bus := by rw [ht.eq]
  refine ⟨ht.eq, fun x hx => ?_, fun c hd hrom hprog hwf x hx => ?_⟩
  · refine State.peek_congr hbus fun q hq => ht.content_other ?_
    rintro rfl
    exact hx (hq.trans hp.symm)
  · obtain ⟨p, hp, hbyte, rfl⟩ := busWrite_eq_put hd hrom hprog h
    rw [State.peek_of_placeOf hbyte ((State.placeOf_congr hbus x).trans (hx.trans hp)),
      State.at_put_byte hbyte v hwf]

end Sys2Proof.Machine
end

section
/-! PROOF. The default map: `DefaultMemoryDevices`, `InterruptRegistersOnBus` and `RomNeverChanges` (20_memory.md
R67, R80 to R83, R88, 60_exceptions.md R415). -/

namespace Sys2Proof.Machine

variable {s t : State} {a : Word} {v : Byte} {c : Connection}

/-! ## Accesses to plain storage -/

theorem busRead_cell (h : decodeAddr s.bus a = some c) (hp : c.port = .rom ∨ c.port = .ram) :
    busRead a s = .ok (s.mem.read (c.owner.base + (a - c.startAddr).toNat)) s := by
  have hprog : ∀ q, c.port ≠ .program q := by obtain hp | hp := hp <;> simp [hp]
  have hclear : c.port ≠ .clearOnRead := by obtain hp | hp := hp <;> simp [hp]
  rw [busRead_of_decode h, Connection.read_ok hprog (Connection.place_cell (hp.imp_right .inl) a),
    if_neg hclear]
  rfl

theorem busWrite_ram (v : Byte) (h : decodeAddr s.bus a = some c) (hp : c.port = .ram) :
    busWrite a v s =
      .ok () { s with mem := s.mem.write (c.owner.base + (a - c.startAddr).toNat) v } := by
  rw [busWrite_of_decode v h, Connection.write_ok (by simp [hp]) (Connection.place_cell (.inr (.inl hp)) a),
    if_neg (by simp [hp])]
  rfl

theorem busWrite_rom (v : Byte) (h : decodeAddr s.bus a = some c) (hp : c.port = .rom) :
    busWrite a v s = .ok () s := by
  rw [busWrite_of_decode v h, Connection.write_ok (by simp [hp]) (Connection.place_cell (.inl hp) a),
    if_pos hp]

theorem Memory.read_write {m : Memory} (h : m.wf = true) (j k : Nat) (v : Byte) :
    (m.write j v).read k = if k = j then v else m.read k := by
  split
  · subst k; exact Memory.read_write_same v h
  · exact Memory.read_write_other m v ‹_›

/-! ## The decoder on the default map -/

/-- No two connections of the default map claim one address. -/
theorem defaultMap_disjoint : ∀ c ∈ defaultMap, ∀ d ∈ defaultMap,
    c = d ∨ c.endAddr < d.startAddr ∨ d.endAddr < c.startAddr := by
  decide

/-- On the default map the order of registration does not matter: whichever connection claims the address is
the one decoded. -/
theorem decodeAddr_defaultMap_iff :
    decodeAddr defaultMap a = some c ↔ c ∈ defaultMap ∧ c.startAddr ≤ a ∧ a ≤ c.endAddr := by
  refine ⟨mem_and_claims_of_decode, fun ⟨hc, hlo, hhi⟩ => ?_⟩
  cases hd : decodeAddr defaultMap a with
  | none =>
    obtain ⟨-, hnone⟩ := firstMatchDecoder defaultMap a
    exact absurd ⟨hlo, hhi⟩ (hnone.1 hd c hc)
  | some d =>
    obtain ⟨hd, hlo', hhi'⟩ := mem_and_claims_of_decode hd
    obtain h | h | h := defaultMap_disjoint c hc d hd
    · rw [h]
    · bv_omega
    · bv_omega

/-- Byte `k` of a storage connection of the default map is byte `k` of its owner's array. -/
theorem defaultMap_ram (hs : s.bus = defaultMap) (hc : c ∈ defaultMap) (hp : c.port = .ram) (v : Byte)
    {k : Nat} (hk : c.startAddr.toNat + k ≤ c.endAddr.toNat) :
    busRead (BitVec.ofNat 16 (c.startAddr.toNat + k)) s = .ok (s.mem.read (c.owner.base + k)) s ∧
    busWrite (BitVec.ofNat 16 (c.startAddr.toNat + k)) v s =
      .ok () { s with mem := s.mem.write (c.owner.base + k) v } := by
  have hend := c.endAddr.isLt
  have hlo : c.startAddr ≤ BitVec.ofNat 16 (c.startAddr.toNat + k) := by bv_omega
  have hhi : BitVec.ofNat 16 (c.startAddr.toNat + k) ≤ c.endAddr := by bv_omega
  have hoff : (BitVec.ofNat 16 (c.startAddr.toNat + k) - c.startAddr).toNat = k := by bv_omega
  have hd : decodeAddr s.bus (BitVec.ofNat 16 (c.startAddr.toNat + k)) = some c := by
    rw [hs]; exact decodeAddr_defaultMap_iff.2 ⟨hc, hlo, hhi⟩
  rw [busRead_cell hd (.inr hp), busWrite_ram v hd hp, hoff]
  exact ⟨rfl, rfl⟩

theorem decodeAddr_rom (hs : s.bus = defaultMap) (ha : a ≤ 0x7FFF) :
    decodeAddr s.bus a = some ⟨0x0000, 0x7FFF, .cart, .rom⟩ := by
  rw [hs]
  exact decodeAddr_defaultMap_iff.2 ⟨by decide, by bv_omega, ha⟩

theorem defaultMap_rom_read (hs : s.bus = defaultMap) (ha : a ≤ 0x7FFF) :
    busRead a s = .ok (s.mem.read (Owner.cart.base + a.toNat)) s := by
  simpa using busRead_cell (decodeAddr_rom hs ha) (.inl rfl)

/-- The arrays of two owners do not overlap (R62). -/
theorem Owner.base_add_inj {o o' : Owner} {m n : Nat} (hm : m < 0x10000) (hn : n < 0x10000)
    (h : o.base + m = o'.base + n) : o = o' ∧ m = n := by
  unfold Owner.base at h
  have hcode : o.code = o'.code := by omega
  exact ⟨Owner.code_inj hcode, by omega⟩

/-- A place that is byte `n` of an owner's array is that of one of the owner's connections, at offset `n`. -/
theorem Connection.place_array {o : Owner} {n : Nat} (hn : n < 0x10000)
    (h : c.place a = .ok (.cell (o.base + n))) : c.owner = o ∧ (a - c.startAddr).toNat = n := by
  unfold Connection.place at h
  split at h
  case h_1 | h_2 | h_3 =>
    simp only [Except.ok.injEq, Place.cell.injEq] at h
    exact Owner.base_add_inj (a - c.startAddr).isLt hn h
  case h_4 | h_5 => split at h <;> cases h
  all_goals cases h

/-- Working RAM has two connections on the default map (R81, R82). -/
theorem defaultMap_wram : ∀ c ∈ defaultMap, c.owner = .wram →
    c = ⟨0xC000, 0xDFFF, .wram, .ram⟩ ∨ c = ⟨0xE000, 0xFDFF, .wram, .ram⟩ := by
  decide

/-- The working-RAM bytes past the end of the echo have one address each (R82). -/
theorem defaultMap_no_echo {b : Word} (hs : s.bus = defaultMap) (hlo : 0xDE00 ≤ a) (hhi : a ≤ 0xDFFF)
    (h : s.placeOf b = s.placeOf a) : b = a := by
  have ha : s.placeOf a = some (.cell (Owner.wram.base + (a - 0xC000).toNat)) := by
    refine State.placeOf_eq_some.2 ⟨⟨0xC000, 0xDFFF, .wram, .ram⟩, ?_, rfl⟩
    rw [hs]
    exact decodeAddr_defaultMap_iff.2 ⟨by decide, by bv_omega, hhi⟩
  obtain ⟨c, hd, hc⟩ := State.placeOf_eq_some.1 (h.trans ha)
  rw [hs] at hd
  obtain ⟨hmem, hclo, hchi⟩ := mem_and_claims_of_decode hd
  obtain ⟨howner, hoff⟩ := Connection.place_array (a - 0xC000).isLt hc
  obtain rfl | rfl := defaultMap_wram c hmem howner
  · bv_omega
  · have hecho : (b - 0xE000).toNat = (a - 0xC000).toNat := hoff
    have hend : b ≤ 0xFDFF := hchi
    have hstart : 0xE000 ≤ b := hclo
    bv_omega

/-- Settles O8: each memory device is a storage connection of the default map. -/
theorem defaultMemoryDevices : Obligations.DefaultMemoryDevices := by
  intro s v hs
  refine ⟨fun k hk => ?_, fun k hk => ?_, fun a b hlo hhi h => defaultMap_no_echo hs hlo hhi h,
    fun hwf j k => Memory.read_write hwf j k v, fun a ha => ⟨defaultMap_rom_read hs ha, ?_⟩, fun k hk => ?_⟩
  · exact defaultMap_ram hs (c := ⟨0xC000, 0xDFFF, .wram, .ram⟩) (by decide) rfl v (k := k)
      (show 0xC000 + k ≤ 0xDFFF by omega)
  · exact defaultMap_ram hs (c := ⟨0xE000, 0xFDFF, .wram, .ram⟩) (by decide) rfl v (k := k)
      (show 0xE000 + k ≤ 0xFDFF by omega)
  · exact busWrite_rom v (decodeAddr_rom hs ha) rfl
  · exact defaultMap_ram hs (c := ⟨0xFF80, 0xFFFE, .hram, .ram⟩) (by decide) rfl v (k := k)
      (show 0xFF80 + k ≤ 0xFFFE by omega)

/-! ## The interrupt registers -/

/-- The calls of a port that acts on the byte at one address and rejects every other (R415). -/
theorem Connection.register_calls {b : Word} {p : Place} (hp : c.port = .ifReg ∨ c.port = .ieReg)
    (hpl : ∀ a, c.place a = if a = b then .ok p else .error (.addressMismatch a)) (a : Word) (v : Byte)
    (s : State) :
    c.read b s = .ok (s.at p) s ∧ c.write b v s = .ok () (s.put p v) ∧
    (a ≠ b → c.read a s = .raised { s with fault := some (.addressMismatch a) } ∧
      c.write a v s = .raised { s with fault := some (.addressMismatch a) }) := by
  have hprog : ∀ q, c.port ≠ .program q := by obtain hp | hp := hp <;> simp [hp]
  have hclear : c.port ≠ .clearOnRead := by obtain hp | hp := hp <;> simp [hp]
  have hrom : c.port ≠ .rom := by obtain hp | hp := hp <;> simp [hp]
  have hok : c.place b = .ok p := (hpl b).trans (if_pos rfl)
  refine ⟨?_, ?_, fun ha => ?_⟩
  · rw [Connection.read_ok hprog hok, if_neg hclear]
  · rw [Connection.write_ok hprog hok, if_neg hrom]
  · have herr : c.place a = .error (.addressMismatch a) := (hpl a).trans (if_neg ha)
    exact ⟨Connection.read_error hprog herr s, Connection.write_error hprog herr v s⟩

theorem Connection.place_ifReg (h : c.port = .ifReg) (a : Word) :
    c.place a = if a = ifAddr then .ok .ifReg else .error (.addressMismatch a) := by
  simp only [Connection.place, h]

theorem Connection.place_ieReg (h : c.port = .ieReg) (a : Word) :
    c.place a = if a = ieAddr then .ok .ieReg else .error (.addressMismatch a) := by
  simp only [Connection.place, h]

/-- The default map registers each interrupt register at its own address alone. -/
theorem defaultMap_registers : ∀ c ∈ defaultMap,
    (c.port = .ifReg → c.startAddr = 0xFF0F ∧ c.endAddr = 0xFF0F) ∧
    (c.port = .ieReg → c.startAddr = 0xFFFF ∧ c.endAddr = 0xFFFF) := by
  decide

theorem eq_of_decode_of_bounds {bus : List Connection} {b : Word} (hd : decodeAddr bus a = some c)
    (hb : c.startAddr = b ∧ c.endAddr = b) : a = b := by
  obtain ⟨-, hlo, hhi⟩ := mem_and_claims_of_decode hd
  obtain ⟨hstart, hend⟩ := hb
  exact BitVec.le_antisymm (hend ▸ hhi) (hstart ▸ hlo)

/-- Settles O10: the calls of the two ports, and the bounds the default map gives them. -/
theorem interruptRegistersOnBus : Obligations.InterruptRegistersOnBus := by
  intro s c a v
  refine ⟨fun h => Connection.register_calls (.inl h) (Connection.place_ifReg h) a v s,
    fun h => Connection.register_calls (.inr h) (Connection.place_ieReg h) a v s,
    fun hd hp => ?_, fun hd hp => ?_, ⟨_, rfl, rfl⟩, ⟨_, rfl, rfl⟩⟩
  all_goals
    obtain ⟨hmem, -⟩ := mem_and_claims_of_decode hd
    obtain ⟨hif, hie⟩ := defaultMap_registers c hmem
  · exact eq_of_decode_of_bounds hd (hif hp)
  · exact eq_of_decode_of_bounds hd (hie hp)

/-! ## ROM -/

/-- The storage is on the default map and the ROM array holds these bytes. -/
def Storage.HasRom (rom : Nat → Byte) (m : Storage) : Prop :=
  m.bus = defaultMap ∧ ∀ k, k < 32768 → m.mem.read (Owner.cart.base + k) = rom k

/-- No port of the default map changes on a read. -/
theorem defaultMap_quiet (hs : s.bus = defaultMap) (a : Word) : s.quietAt a = true := by
  unfold State.quietAt
  split
  · rfl
  · rename_i c hd
    obtain ⟨hmem, -⟩ := mem_and_claims_of_decode hd
    rw [hs] at hmem
    fin_cases hmem <;> rfl

/-- The cartridge has one connection on the default map, and it is read-only. -/
theorem defaultMap_cart : ∀ c ∈ defaultMap, c.owner = .cart → c.port = .rom := by
  decide

/-- A write on the default map leaves every byte of the ROM array: the one connection of its owner ignores
writes, and no other owner's array reaches it. -/
theorem busWrite_rom_content (hs : s.bus = defaultMap) (a : Word) (v : Byte) {k : Nat} (hk : k < 32768) :
    (busWrite a v s).state.content (.cell (Owner.cart.base + k)) =
      s.content (.cell (Owner.cart.base + k)) := by
  by_cases hp : s.placeOf a = some (.cell (Owner.cart.base + k))
  · obtain ⟨c, hd, hpl⟩ := State.placeOf_eq_some.1 hp
    obtain ⟨hmem, -⟩ := mem_and_claims_of_decode hd
    obtain ⟨howner, -⟩ := Connection.place_array (by omega) hpl
    rw [busWrite_rom v hd (defaultMap_cart c (hs ▸ hmem) howner)]
    rfl
  · exact busWrite_content v hp

theorem Storage.HasRom.of_content {rom : Nat → Byte} (h : s.storage.HasRom rom) (hb : t.bus = s.bus)
    (ht : ∀ k, k < 32768 → t.content (.cell (Owner.cart.base + k)) = s.content (.cell (Owner.cart.base + k))) :
    t.storage.HasRom rom :=
  ⟨hb.trans h.1, fun k hk => (BitVec.eq_of_toNat_eq (ht k hk)).trans (h.2 k hk)⟩

/-- Every bus access keeps the ROM array. -/
theorem Storage.hasRom_busKept (rom : Nat → Byte) : BusKept (Storage.HasRom rom) where
  read a s h := h.of_content (busRead_busOnly a s).bus fun _ _ =>
    busRead_content (.inl (defaultMap_quiet h.1 a))
  write a v s h := h.of_content (busWrite_busOnly a v s).bus fun _ hk => busWrite_rom_content h.1 a v hk

/-- Settles O34: every bus access keeps the ROM array and the map, and so every step; the addresses up to 0x7FFF
read that array. -/
theorem romNeverChanges : Obligations.RomNeverChanges := by
  intro s t hs ht
  obtain ⟨htmap, hrom⟩ := (Storage.hasRom_busKept fun k => s.mem.read (Owner.cart.base + k)).step
    (s := s) ⟨hs, fun _ _ => rfl⟩ ht
  refine ⟨hrom, fun a ha => ?_⟩
  have hread : t.mem.read (Owner.cart.base + a.toNat) = s.mem.read (Owner.cart.base + a.toNat) :=
    hrom a.toNat (by bv_omega)
  rw [State.peek, defaultMap_rom_read htmap ha, State.peek, defaultMap_rom_read hs ha, hread]

end Sys2Proof.Machine
end

section
/-! PROOF. What an instruction leaves alone in memory: `MemoryFrame` (20_memory.md R61, R72, R86). -/

namespace Sys2Proof.Machine

/-- `t` has the map of `s`, and the place holds in `t` what it held in `s`. -/
structure Spares (p : Place) (s t : State) : Prop where
  bus : t.bus = s.bus
  content : t.content p = s.content p

/-- A store to the address does not reach the place. -/
abbrev StoreMisses (p : Place) (s : State) (a : Word) : Prop := s.placeOf a ≠ some p

/-- A read of the address does not change what the place holds. -/
abbrev LoadMisses (p : Place) (s : State) (a : Word) : Prop := s.quietAt a = true ∨ s.placeOf a ≠ some p

/-- A completed pop of one byte leaves SP one higher (R177). -/
theorem popByte_sp {s t : State} {v : Byte} (h : popByte s = .ok v t) : t.sp = s.sp + 1 := by
  unfold popByte at h
  cases hr : busRead s.sp s with
  | ok w u =>
    rw [hr] at h
    cases h
    exact congrArg (· + 1) (BusOnly.of_read hr).sp
  | raised u => rw [hr] at h; cases h

namespace Spares

variable {p : Place} {s t u : State} {α β : Type}

/-! ## Updates of the state -/

theorem refl (p : Place) (s : State) : Spares p s s := ⟨rfl, rfl⟩

/-- An update that leaves the map, the storage, the interrupt registers and the device states; of a record update
it is seen by `rfl`. -/
theorem congr (h : Spares p s t) (hs : u.storage = t.storage := by exact rfl)
    (hif : u.ifl = t.ifl := by exact rfl) (hie : u.ie = t.ie := by exact rfl) : Spares p s u := by
  obtain ⟨hbus, hmem, hdev⟩ : u.bus = t.bus ∧ u.mem = t.mem ∧ u.devices = t.devices := by
    simpa [State.storage] using hs
  refine ⟨hbus.trans h.bus, Eq.trans ?_ h.content⟩
  cases p <;> simp [State.content, State.device, hmem, hdev, hif, hie]

theorem regs (h : Spares p s t) (hu : RegsOnly t u) : Spares p s u := by
  rw [hu]; exact h.congr

/-! ## Operations -/

theorem bind {x : Res α} {k : α → State → Res β} (hx : Spares p s x.state)
    (hk : ∀ v u, x = .ok v u → Spares p s u → Spares p s (k v u).state) : Spares p s (x.bind k).state := by
  cases x with
  | ok v u => exact hk v u rfl hx
  | raised u => exact hx

/-- The outcome of an instruction is the state its operation ends in. -/
theorem finish {x : Res Unit} (hx : Spares p s x.state) (ht : x.finish = .next t) : Spares p s t := by
  cases x <;> cases ht <;> exact hx

theorem raise (h : Spares p s t) (k : Fault) : Spares p s (Machine.raise k t : Res α).state := h.congr

theorem done (h : Spares p s t) (n : Nat) : Spares p s (Machine.done n t).state := h.congr

theorem busRead (h : Spares p s t) {a : Word} (ha : LoadMisses p s a) :
    Spares p s (Machine.busRead a t).state := by
  refine ⟨(busRead_busOnly a t).bus.trans h.bus, (busRead_content ?_).trans h.content⟩
  by_cases hp : s.placeOf a = some p
  · have hquiet : s.quietAt a = true := ha.resolve_right (not_not_intro hp)
    refine .inl ((State.quietAt_of_content h.bus fun q hq => ?_).trans hquiet)
    cases hp.symm.trans hq
    exact h.content
  · exact .inr (State.placeOf_congr h.bus a ▸ hp)

theorem busWrite (h : Spares p s t) {a : Word} (ha : StoreMisses p s a) (v : Byte) :
    Spares p s (Machine.busWrite a v t).state :=
  ⟨(busWrite_busOnly a v t).bus.trans h.bus,
    (busWrite_content v (State.placeOf_congr h.bus a ▸ ha)).trans h.content⟩

theorem memWrite16 (h : Spares p s t) {a : Word} (ha : StoreMisses p s a) (ha' : StoreMisses p s (a + 1))
    (v : Word) : Spares p s (Machine.memWrite16 a v t).state :=
  (h.busWrite ha (lowByte v)).bind fun _ _ _ hu => hu.busWrite ha' (highByte v)

/-! ## The stack -/

theorem pushByte (h : Spares p s t) (ha : StoreMisses p s (t.sp - 1)) (v : Byte) :
    Spares p s (Machine.pushByte v t).state :=
  (h.congr (u := { t with sp := t.sp - 1 })).busWrite ha v

theorem push16 (h : Spares p s t) (ha : StoreMisses p s (t.sp - 1)) (ha' : StoreMisses p s (t.sp - 1 - 1))
    (v : Word) : Spares p s (Machine.push16 v t).state :=
  (h.pushByte ha (highByte v)).bind fun _ u hx hu => by
    have hsp : u.sp = t.sp - 1 := (BusOnly.of_write hx).sp
    exact hu.pushByte (hsp ▸ ha') (lowByte v)

theorem popByte (h : Spares p s t) (ha : LoadMisses p s t.sp) : Spares p s (Machine.popByte t).state :=
  (h.busRead ha).bind fun _ _ _ hu => hu.congr

theorem pop16 (h : Spares p s t) (ha : LoadMisses p s t.sp) (ha' : LoadMisses p s (t.sp + 1)) :
    Spares p s (Machine.pop16 t).state :=
  (h.popByte ha).bind fun _ _ hx hu => (hu.popByte (popByte_sp hx ▸ ha')).bind fun _ _ _ hu' => hu'

/-! ## Loads, arithmetic, bits -/

theorem loadReg (h : Spares p s t) {a : Word} (ha : LoadMisses p s a) (r : Reg8) (n : Nat) :
    Spares p s (Machine.loadReg r a n t).state :=
  (h.busRead ha).bind fun v u _ hu => (hu.regs (.setReg u r v)).done n

theorem storeByte (h : Spares p s t) {a : Word} (ha : StoreMisses p s a) (v : Byte) (n : Nat) :
    Spares p s (Machine.storeByte a v n t).state :=
  (h.busWrite ha v).bind fun _ _ _ hu => hu.done n

theorem loadStepHl (h : Spares p s t) (ha : LoadMisses p s t.hl) (step : Word) (n : Nat) :
    Spares p s (Machine.loadStepHl step n t).state :=
  (h.busRead ha).bind fun _ _ _ hu => hu.congr

theorem storeStepHl (h : Spares p s t) (ha : StoreMisses p s t.hl) (step : Word) (n : Nat) :
    Spares p s (Machine.storeStepHl step n t).state :=
  (h.busWrite ha t.a).bind fun _ _ _ hu => hu.congr

theorem withHl (h : Spares p s t) (ha : LoadMisses p s t.hl) {k : Byte → State → Res Unit}
    (hk : ∀ v u, u.hl = t.hl → Spares p s u → Spares p s (k v u).state) :
    Spares p s (Machine.withHl k t).state :=
  (h.busRead ha).bind fun v u hx hu => hk v u (BusOnly.of_read hx).hl hu

theorem modifyHl (h : Spares p s t) (ha : LoadMisses p s t.hl) (ha' : StoreMisses p s t.hl)
    (g : Byte → AluResult) (n : Nat) : Spares p s (Machine.modifyHl g n t).state :=
  h.withHl ha fun v _ hhl hu => (hu.busWrite (hhl ▸ ha') (g v).r).bind fun _ _ _ hu' => hu'.congr

theorem updateHl (h : Spares p s t) (ha : LoadMisses p s t.hl) (ha' : StoreMisses p s t.hl)
    (g : Byte → Byte) (n : Nat) : Spares p s (Machine.updateHl g n t).state :=
  h.withHl ha fun v _ hhl hu => (hu.busWrite (hhl ▸ ha') (g v)).bind fun _ _ _ hu' => hu'.done n

theorem withIndex (h : Spares p s t) (b : Nat) {k : State → Res Unit} (hk : Spares p s (k t).state) :
    Spares p s (Machine.withIndex b k t).state := by
  unfold Machine.withIndex
  split
  · exact hk
  · exact h.raise _

/-! ## Control transfers -/

theorem call (h : Spares p s t) (ha : StoreMisses p s (t.sp - 1)) (ha' : StoreMisses p s (t.sp - 1 - 1))
    (a : Word) (n : Nat) : Spares p s (Machine.call a n t).state :=
  (h.push16 ha ha' t.pc).bind fun _ _ _ hu => hu.congr

theorem returnTo (h : Spares p s t) (ha : LoadMisses p s t.sp) (ha' : LoadMisses p s (t.sp + 1)) (n : Nat) :
    Spares p s (Machine.returnTo n t).state :=
  (h.pop16 ha ha').bind fun _ _ _ hu => hu.congr

theorem returnFromInterrupt (h : Spares p s t) (ha : LoadMisses p s t.sp) (ha' : LoadMisses p s (t.sp + 1)) :
    Spares p s (Machine.returnFromInterrupt t).state :=
  (h.pop16 ha ha').bind fun _ _ _ hu => hu.congr

theorem ifCond (h : Spares p s t) (cc : Cond) {k : State → Res Unit} (n : Nat)
    (hk : t.cond cc = true → Spares p s (k t).state) : Spares p s (Machine.ifCond cc k n t).state := by
  unfold Machine.ifCond
  split
  · exact hk ‹_›
  · exact h.done n

end Spares

/-! ## The instructions -/

variable {p : Place} {s t : State}

/-- A conditional call stores when it is taken. -/
theorem stores_callCcA16 {cc : Cond} (h : s.cond cc = true) (a : Word) :
    (Instr.callCcA16 cc a).stores s = [s.sp - 1, s.sp - 1 - 1] :=
  if_pos h

/-- A conditional return loads when it is taken. -/
theorem loads_retCc {cc : Cond} (h : s.cond cc = true) : (Instr.retCc cc).loads s = [s.sp, s.sp + 1] :=
  if_pos h

/-- An instruction whose stores and loads, as the effect tables give them, miss a place leaves what it holds. -/
theorem exec_spares {i : Instr} (hi : i ≠ .prefixCb) (hst : ∀ a ∈ i.stores s, StoreMisses p s a)
    (hld : ∀ a ∈ i.loads s, LoadMisses p s a) (ht : exec i s = .next t) : Spares p s t := by
  have h := Spares.refl p s
  cases i with
  | prefixCb => exact absurd rfl hi
  -- one load
  | ldRHl _ | ldABc | ldADe | ldAA16 _ | ldhAA8 _ | ldAC =>
    exact (h.loadReg (hld _ (.head _)) _ _).finish ht
  | ldAHlInc | ldAHlDec => exact (h.loadStepHl (hld _ (.head _)) _ _).finish ht
  | addAHl | adcAHl | subHl | sbcAHl | andHl | xorHl | orHl | cpHl =>
    exact (h.withHl (hld _ (.head _)) fun _ _ _ hu => hu.congr).finish ht
  | bitBHl b => exact (h.withIndex b (h.withHl (hld _ (.head _)) fun _ _ _ hu => hu.congr)).finish ht
  -- one store
  | ldHlR _ | ldHlD8 _ | ldBcA | ldDeA | ldA16A _ | ldhA8A _ | ldCA =>
    exact (h.storeByte (hst _ (.head _)) _ _).finish ht
  | ldHlIncA | ldHlDecA => exact (h.storeStepHl (hst _ (.head _)) _ _).finish ht
  -- a load and a store at HL
  | incHl | decHl | rlcHl | rrcHl | rlHl | rrHl | slaHl | sraHl | swapHl | srlHl =>
    exact (h.modifyHl (hld _ (.head _)) (hst _ (.head _)) _ _).finish ht
  | resBHl b | setBHl b =>
    exact (h.withIndex b (h.updateHl (hld _ (.head _)) (hst _ (.head _)) _ _)).finish ht
  -- two stores
  | ldA16Sp _ =>
    exact ((h.memWrite16 (hst _ (.head _)) (hst _ (.tail _ (.head _))) _).bind fun _ _ _ hu =>
      hu.done _).finish ht
  | push _ | pushAf =>
    exact ((h.push16 (hst _ (.head _)) (hst _ (.tail _ (.head _))) _).bind fun _ _ _ hu =>
      hu.done _).finish ht
  | callA16 _ => exact (h.call (hst _ (.head _)) (hst _ (.tail _ (.head _))) _ _).finish ht
  | callCcA16 cc a =>
    refine (h.ifCond cc _ fun hcc => ?_).finish ht
    rw [stores_callCcA16 hcc] at hst
    exact h.call (hst _ (.head _)) (hst _ (.tail _ (.head _))) _ _
  | rstT b => exact (h.withIndex b (h.call (hst _ (.head _)) (hst _ (.tail _ (.head _))) _ _)).finish ht
  -- two loads
  | pop rp =>
    exact ((h.pop16 (hld _ (.head _)) (hld _ (.tail _ (.head _)))).bind fun v u _ hu =>
      (hu.regs (.setStackPair u rp v)).done _).finish ht
  | popAf =>
    exact ((h.pop16 (hld _ (.head _)) (hld _ (.tail _ (.head _)))).bind fun _ _ _ hu => hu.congr).finish ht
  | ret => exact (h.returnTo (hld _ (.head _)) (hld _ (.tail _ (.head _))) _).finish ht
  | reti =>
    exact ((h.returnFromInterrupt (hld _ (.head _)) (hld _ (.tail _ (.head _)))).bind fun _ _ _ hu =>
      hu.done _).finish ht
  | retCc cc =>
    refine (h.ifCond cc _ fun hcc => ?_).finish ht
    rw [loads_retCc hcc] at hld
    exact h.returnTo (hld _ (.head _)) (hld _ (.tail _ (.head _))) _
  -- no access: registers, flags, pointers and latches
  | ldRR r _ | ldRD8 r _ => exact ((h.regs (.setReg s r _)).done _).finish ht
  | ldRpD16 rp _ | incRp rp | decRp rp => exact ((h.regs (.setPair s rp _)).done _).finish ht
  | incR r | decR r | rlcR r | rrcR r | rlR r | rrR r | slaR r | sraR r | swapR r | srlR r =>
    exact ((h.congr.regs (.setReg _ r _)).done _).finish ht
  | resBR b r | setBR b r => exact (h.withIndex b ((h.regs (.setReg s r _)).done _)).finish ht
  | bitBR b _ => exact (h.withIndex b h.congr).finish ht
  | jpCcA16 cc _ | jrCcE cc _ => exact (h.ifCond cc _ fun _ => h.congr).finish ht
  | ldSpHl | ldHlSpE _ | addHlRp _ | addSpE _
  | addAR _ | adcAR _ | subR _ | sbcAR _ | andR _ | xorR _ | orR _ | cpR _
  | addAD8 _ | adcAD8 _ | subD8 _ | sbcAD8 _ | andD8 _ | xorD8 _ | orD8 _ | cpD8 _
  | daa | cpl | scf | ccf | rlca | rrca | rla | rra | jpA16 _ | jpHl | jrE _
  | nop | halt | stop _ | di | ei
  | illegalD3 | illegalDB | illegalDD | illegalE3 | illegalE4 | illegalEB | illegalEC | illegalED
  | illegalF4 | illegalFC | illegalFD => cases ht; exact h.congr

/-- Settles O18: what the accesses miss is spared; and an address reads as before unless its place is not. -/
theorem memoryFrame : Obligations.MemoryFrame := by
  intro i s t hi ht
  obtain ⟨hbus, -⟩ := controlStateFrame i s t ht
  refine ⟨fun p hst hld => (exec_spares hi hst hld ht).content,
    fun x hst hld => State.peek_congr hbus fun p hp => ?_⟩
  rw [hp] at hst hld
  have hstore : ∀ a ∈ i.stores s, StoreMisses p s a := fun a ha => (hst a ha).symm
  have hload : ∀ a ∈ i.loads s, LoadMisses p s a := fun a ha => (hld a ha).imp_right Ne.symm
  exact (exec_spares hi hstore hload ht).content

end Sys2Proof.Machine
end

section
/-! PROOF. Boot wiring and the connection list: `BootWiring` (20_memory.md R63, R66, 70_reset_and_hazards.md R452). -/

namespace Sys2Proof.Machine

variable {s : State}

theorem register_of_lt (c : Connection) (h : s.bus.length < s.cfg.nDev) :
    register c s = .ok () { s with bus := s.bus ++ [c] } :=
  if_neg (by omega)

theorem register_of_le (c : Connection) (h : s.cfg.nDev ≤ s.bus.length) :
    register c s = .raised { s with fault := some (.capacityExceeded .bus) } :=
  if_pos h

/-- A map for which there is room is appended in order. -/
theorem wire_of_le (map : List Connection) (h : s.bus.length + map.length ≤ s.cfg.nDev) :
    wire map s = .ok () { s with bus := s.bus ++ map } := by
  induction map generalizing s with
  | nil => rw [List.append_nil]; rfl
  | cons c map ih =>
    simp only [List.length_cons] at h
    rw [wire, register_of_lt c (by omega), Res.bind_ok, ih (by simp; omega)]
    simp

/-- The wiring of a map for which there is no room ends in a fault. -/
theorem wire_of_lt (map : List Connection) (hs : s.bus.length ≤ s.cfg.nDev)
    (h : s.cfg.nDev < s.bus.length + map.length) :
    ∃ t, wire map s = .raised t ∧ t.fault = some (.capacityExceeded .bus) := by
  induction map generalizing s with
  | nil => exact absurd hs (by simpa using h)
  | cons c map ih =>
    by_cases hroom : s.bus.length < s.cfg.nDev
    · rw [wire, register_of_lt c hroom, Res.bind_ok]
      exact ih (by simp; omega) (by simp at h ⊢; omega)
    · rw [wire, register_of_le c (by omega)]
      exact ⟨_, rfl, rfl⟩

theorem boot_of_le (r : ResetValues) (p : Platform) (h : p.map.length ≤ p.cfg.nDev) :
    boot r p = State.resetWith r p := by
  rw [boot, wire_of_le p.map (by simpa [State.resetWith] using h)]
  rfl

theorem boot_of_lt (r : ResetValues) (p : Platform) (h : p.cfg.nDev < p.map.length) :
    (boot r p).fault = some (.capacityExceeded .bus) := by
  obtain ⟨t, ht, hf⟩ := wire_of_lt (s := State.resetWith r { p with map := [] }) p.map (Nat.zero_le _)
    (by simpa [State.resetWith] using h)
  rw [boot, ht]
  exact hf

/-- Every bus access keeps the connection list. -/
theorem Storage.bus_busKept (bus : List Connection) : BusKept fun m => m.bus = bus where
  read a s h := (busRead_busOnly a s).bus.trans h
  write a v s h := (busWrite_busOnly a v s).bus.trans h

/-- Settles O13: the wiring is an induction over the map; a faulted machine takes no step; and what every bus
access keeps every step keeps. -/
theorem bootWiring : Obligations.BootWiring := by
  refine ⟨fun c s => ⟨register_of_lt c, register_of_le c⟩, fun r p => ⟨boot_of_le r p, fun h => ?_⟩,
    fun s t ht => (Storage.bus_busKept s.bus).step rfl ht⟩
  have hf := boot_of_lt r p h
  exact ⟨hf, step_of_fault (by simp [hf])⟩

end Sys2Proof.Machine
end

section
/-! PROOF. The bus lock: `StepKeepsCpuLockFree` and `LockProtocol` (20_memory.md R73 to R76, 60_exceptions.md
R414). -/

namespace Sys2Proof.Machine

variable {s t : State}

/-! ## The lock around Interrupt-Service -/

/-- The outcome leaves the lock with the CPU only if it was the CPU's before. -/
def LockFromCpu (s : State) (o : Out) : Prop := ∀ t, o = .next t → t.lock = some .cpu → s.lock = some .cpu

theorem next_lockFromCpu (h : t.lock = some .cpu → s.lock = some .cpu) : LockFromCpu s (.next t) := by
  rintro _ ⟨⟩
  exact h

theorem masterAccess_lockFromCpu {α : Type} (m : Nat) {op : State → Res α} (reply : α → Reply)
    (h : BusOnly s (op s).state) : LockFromCpu s (masterAccess m op reply s) := by
  have hlock : (op s).state.lock = s.lock := h.lock
  unfold masterAccess
  split
  · cases hop : op s <;> rw [hop] at hlock <;> exact next_lockFromCpu hlock.symm.trans
  · exact next_lockFromCpu id

theorem queueWritten_lockFromCpu (x : Except Fault (List Event)) (s : State) :
    LockFromCpu s (queueWritten x s) := by
  cases x <;> exact next_lockFromCpu id

theorem queueTaken_lockFromCpu (x : Except Fault (Event × List Event)) (s : State) :
    LockFromCpu s (queueTaken x s) := by
  cases x <;> exact next_lockFromCpu id

theorem queueSeen_lockFromCpu (x : Except Fault Event) (s : State) : LockFromCpu s (queueSeen x s) := by
  cases x <;> exact next_lockFromCpu id

theorem unlockBy_lock_dev (s : State) (m : Nat) :
    (s.unlockBy (.dev m)).lock = some .cpu → s.lock = some .cpu := by
  rw [State.unlockBy_lock]
  split
  · nofun
  · exact id

/-- No move of the environment gives the CPU the lock (R74, R76). -/
theorem runMove_lockFromCpu {m : Move} (hm : m ≠ .cpuStep) (s : State) : LockFromCpu s (runMove m s) := by
  cases m with
  | cpuStep => exact absurd rfl hm
  | setFlag k => exact next_lockFromCpu (State.setFlag_lock s k).symm.trans
  | clearFlag k => exact next_lockFromCpu (State.clearFlag_lock s k).symm.trans
  | busRead m a => exact masterAccess_lockFromCpu m _ (busRead_busOnly a s)
  | busWrite m a v => exact masterAccess_lockFromCpu m _ (busWrite_busOnly a v s)
  | lock m =>
    rw [runMove]
    split
    · exact next_lockFromCpu nofun
    · exact next_lockFromCpu id
  | unlock m => exact next_lockFromCpu (unlockBy_lock_dev s m)
  | schedule _ | push _ => exact queueWritten_lockFromCpu _ s
  | executeNext | pop => exact queueTaken_lockFromCpu _ s
  | front => exact queueSeen_lockFromCpu _ s
  | isEmpty | isFull => exact next_lockFromCpu id

/-- A CPU step leaves the lock as it was, or free, unless it ends in a fault (R413, R414). -/
theorem cpuStep_lockOk (hs : s.lock ≠ some .cpu) (ht : cpuStep s = .next t) : t.lockOk := by
  obtain ⟨u, hu, -, hstep⟩ := cpuStep_frame s
  cases hu.symm.trans ht
  intro hlock hf
  cases hheld : s.cpuHeld with
  | true =>
    cases (cpuStep_of_held hheld).symm.trans ht
    exact hs hlock
  | false =>
    obtain h | h := (hstep hheld).lock hf
    · exact hs (h ▸ hlock)
    · simp [h] at hlock

theorem runMove_lockOk {m : Move} (hs : s.lock ≠ some .cpu) (ht : runMove m s = .next t) : t.lockOk := by
  by_cases hm : m = .cpuStep
  · subst hm
    exact cpuStep_lockOk hs ht
  · exact fun hlock => absurd (runMove_lockFromCpu hm s t ht hlock) hs

theorem takeMove_lock (s : State) : s.takeMove.2.lock = s.lock := by
  unfold State.takeMove
  split
  · rfl
  · split <;> rfl

/-- Settles O32: without a fault the lock is not the CPU's, and then no move leaves it with the CPU but a faulted
Interrupt-Service. -/
theorem stepKeepsCpuLockFree : Obligations.StepKeepsCpuLockFree := by
  intro s t hs ht
  by_cases hf : s.fault = none
  · rw [step_of_no_fault hf] at ht
    exact runMove_lockOk (takeMove_lock s ▸ fun hlock => hs hlock hf) ht
  · cases (step_of_fault hf).symm.trans ht
    exact hs

/-! ## The lock protocol -/

theorem State.lockFreeFor_iff {m : Master} : s.lockFreeFor m = true ↔ s.lock = none ∨ s.lock = some m := by
  simp [State.lockFreeFor]

theorem masterAccess_of_free {α : Type} {m : Nat} (op : State → Res α) (reply : α → Reply)
    (h : s.lock = none ∨ s.lock = some (.dev m)) :
    (∀ v t, op s = .ok v t → masterAccess m op reply s = .next { t with reply := some (reply v) }) ∧
    (∀ t, op s = .raised t → masterAccess m op reply s = .next { t with reply := t.fault.map .failed }) := by
  unfold masterAccess
  rw [if_pos (State.lockFreeFor_iff.2 h)]
  exact ⟨fun v t ht => by rw [ht]; rfl, fun t ht => by rw [ht]⟩

theorem masterAccess_of_held {α : Type} {m : Nat} (op : State → Res α) (reply : α → Reply)
    (h : ¬ (s.lock = none ∨ s.lock = some (.dev m))) :
    masterAccess m op reply s = .next { s with reply := some .notEnabled } :=
  if_neg (mt State.lockFreeFor_iff.1 h)

/-- The state with another lock holder. -/
def State.withLock (s : State) (l : Option Master) : State := { s with lock := l }

/-- The same end with another lock holder. -/
def Res.withLock {α : Type} (l : Option Master) : Res α → Res α
  | .ok v s => .ok v (s.withLock l)
  | .raised s => .raised (s.withLock l)

theorem State.setDevice_withLock (s : State) (l : Option Master) (o : Owner) (q : Nat) :
    (s.withLock l).setDevice o q = (s.setDevice o q).withLock l := by
  unfold State.setDevice
  change (if s.device o = q then _ else _) = _
  split <;> rfl

theorem State.put_withLock (s : State) (l : Option Master) (p : Place) (v : Byte) :
    (s.withLock l).put p v = (s.put p v).withLock l := by
  cases p with
  | cell k => rfl
  | ifReg | ieReg => rfl
  | device o => exact s.setDevice_withLock l o v.toNat

theorem Connection.run_withLock (c : Connection) (e : EntryPoint) (a : Word) (v : Byte) (s : State)
    (l : Option Master) : c.run e a v (s.withLock l) = (c.run e a v s).withLock l := by
  have hdev : (s.withLock l).device c.owner = s.device c.owner := rfl
  rw [Connection.run_eq, Connection.run_eq, hdev, State.setDevice_withLock]
  split <;> rfl

theorem Connection.read_withLock (c : Connection) (a : Word) (s : State) (l : Option Master) :
    c.read a (s.withLock l) = (c.read a s).withLock l := by
  by_cases hc : ∃ p, c.port = .program p
  · obtain ⟨p, hc⟩ := hc
    rw [Connection.read_program hc, Connection.read_program hc, Connection.run_withLock]
  · have hc' : ∀ p, c.port ≠ .program p := fun p h => hc ⟨p, h⟩
    cases hpl : c.place a with
    | error k => rw [Connection.read_error hc' hpl, Connection.read_error hc' hpl]; rfl
    | ok p =>
      have hat : (s.withLock l).at p = s.at p := by cases p <;> rfl
      rw [Connection.read_ok hc' hpl, Connection.read_ok hc' hpl, hat, State.put_withLock]
      split <;> rfl

theorem Connection.write_withLock (c : Connection) (a : Word) (v : Byte) (s : State) (l : Option Master) :
    c.write a v (s.withLock l) = (c.write a v s).withLock l := by
  by_cases hc : ∃ p, c.port = .program p
  · obtain ⟨p, hc⟩ := hc
    rw [Connection.write_program hc, Connection.write_program hc, Connection.run_withLock]
    cases c.run p.write a v s <;> rfl
  · have hc' : ∀ p, c.port ≠ .program p := fun p h => hc ⟨p, h⟩
    cases hpl : c.place a with
    | error k => rw [Connection.write_error hc' hpl, Connection.write_error hc' hpl]; rfl
    | ok p =>
      rw [Connection.write_ok hc' hpl, Connection.write_ok hc' hpl, State.put_withLock]
      split <;> rfl

/-- A bus read does not look at the lock (R75). -/
theorem busRead_withLock (a : Word) (s : State) (l : Option Master) :
    busRead a (s.withLock l) = (busRead a s).withLock l := by
  have hbus : (s.withLock l).bus = s.bus := rfl
  cases hd : decodeAddr s.bus a with
  | none => rw [busRead_unmapped (hbus ▸ hd), busRead_unmapped hd]; rfl
  | some c => rw [busRead_of_decode (hbus ▸ hd), busRead_of_decode hd, Connection.read_withLock]

/-- A bus write does not look at the lock (R75). -/
theorem busWrite_withLock (a : Word) (v : Byte) (s : State) (l : Option Master) :
    busWrite a v (s.withLock l) = (busWrite a v s).withLock l := by
  have hbus : (s.withLock l).bus = s.bus := rfl
  cases hd : decodeAddr s.bus a with
  | none => rw [busWrite_unmapped v (hbus ▸ hd), busWrite_unmapped v hd]; rfl
  | some c => rw [busWrite_of_decode v (hbus ▸ hd), busWrite_of_decode v hd, Connection.write_withLock]

theorem lock_of_free {m : Nat} (h : s.lock = none ∨ s.lock = some (.dev m)) :
    runMove (.lock m) s = .next { s with lock := some (.dev m), reply := some .done } :=
  if_pos (State.lockFreeFor_iff.2 h)

theorem lock_of_held {m : Nat} (h : ¬ (s.lock = none ∨ s.lock = some (.dev m))) :
    runMove (.lock m) s = .next { s with reply := some .notEnabled } :=
  if_neg (mt State.lockFreeFor_iff.1 h)

theorem unlock_of_holder {m : Nat} (h : s.lock = some (.dev m)) :
    runMove (.unlock m) s = .next { s with lock := none, reply := some .done } := by
  rw [runMove, State.unlockBy, if_pos h]
  rfl

theorem unlock_of_other {m : Nat} (h : s.lock ≠ some (.dev m)) :
    runMove (.unlock m) s = .next { s with reply := some .done } := by
  rw [runMove, State.unlockBy, if_neg h]
  rfl

/-- The CPU takes no step while another master holds the lock (R40, R75). -/
theorem cpuStep_of_lock {m : Nat} (h : s.lock = some (.dev m)) : cpuStep s = .next s :=
  cpuStep_of_held (by simp [State.cpuHeld, State.lockFreeFor, h])

/-- Settles O12: the moves by the state of the lock, and accesses that commute with a change of its holder. -/
theorem lockProtocol : Obligations.LockProtocol := by
  intro s m a v
  refine ⟨lock_of_free, lock_of_held, unlock_of_holder, unlock_of_other, fun h => ?_, fun h => ?_,
    cpuStep_of_lock, fun l w t ht => ?_, fun l t ht => ?_⟩
  · obtain ⟨hread, hread'⟩ := masterAccess_of_free (busRead a) .byte h
    obtain ⟨hwrite, hwrite'⟩ := masterAccess_of_free (busWrite a v) (fun _ => .done) h
    exact ⟨hread, fun t => hwrite () t, hread', hwrite'⟩
  · exact ⟨masterAccess_of_held (busRead a) .byte h, masterAccess_of_held (busWrite a v) (fun _ => .done) h⟩
  · exact (busRead_withLock a s l).trans (congrArg (Res.withLock l) ht)
  · exact (busWrite_withLock a v s l).trans (congrArg (Res.withLock l) ht)

end Sys2Proof.Machine
end

section
/-! PROOF. The fields of an opcode byte, the register field and the byte order of an immediate (30_encoding.md R103,
R104). -/

namespace Sys2Proof

/-! ## Fields -/

theorem fieldX_lt (op : Byte) : fieldX op < 4 := by
  have := op.isLt
  unfold fieldX
  omega

theorem fieldY_lt (op : Byte) : fieldY op < 8 := Nat.mod_lt _ (by decide)

theorem fieldZ_lt (op : Byte) : fieldZ op < 8 := Nat.mod_lt _ (by decide)

/-- An opcode byte is its fields. -/
theorem opcode_of_fields {op : Byte} (n : Nat) (h : n = 64 * fieldX op + 8 * fieldY op + fieldZ op) :
    opcode n = op := by
  have hn : n = op.toNat := by
    rw [h]
    unfold fieldX fieldY fieldZ
    omega
  rw [hn]
  simp [opcode]

/-! ## The register field -/

/-- A 3-bit register field selects the byte at HL or is the code of the register that it selects (R104). -/
theorem Reg8.ofCode_cases {z : Nat} (hz : z < 8) :
    (z = 6 ∧ Reg8.ofCode z = none) ∨ ∃ r : Reg8, z = r.code ∧ Reg8.ofCode z = some r := by
  obtain hz' | rfl | rfl : z < 6 ∨ z = 6 ∨ z = 7 := by omega
  · interval_cases z <;> exact .inr ⟨_, rfl, rfl⟩
  · exact .inl ⟨rfl, rfl⟩
  · exact .inr ⟨_, rfl, rfl⟩

/-! ## Byte order -/

theorem encodeD16_wordOf (n : Nat) (hi lo : Byte) : encodeD16 n (wordOf hi lo) = [opcode n, lo, hi] := by
  simp [encodeD16, wordOf]

end Sys2Proof
end

section
/-! PROOF. The decoder reads every well-formed instruction back from its encoding: `DecodeOfEncode`
(30_encoding.md R100 to R115). -/

namespace Sys2Proof

/-- A 16-bit immediate is read back whole when the opcode's row reads it byte by byte. -/
theorem decode_encodeD16 {n : Nat} {mk : Word → Instr} (rest : List Byte) (v : Word)
    (h : ∀ hi lo : Byte, decode (opcode n :: lo :: hi :: rest) = .ok (mk (wordOf hi lo), rest)) :
    decode (encodeD16 n v ++ rest) = .ok (mk v, rest) := by
  have := h (highByte v) (lowByte v)
  rwa [wordOf_high_low] at this

/-- Whatever bytes follow are left over; of the 0xCB entry the next byte would be the second opcode (R102). -/
theorem decode_encode_append {i : Instr} (hwf : i.wf = true) (hi : i ≠ .prefixCb) (rest : List Byte) :
    decode (encode i ++ rest) = .ok (i, rest) := by
  cases i with
  | prefixCb => exact absurd rfl hi
  -- no operand, or an 8-bit immediate alone: the row is the opcode's
  | ldHlD8 | ldABc | ldADe | ldBcA | ldDeA | ldhAA8 | ldhA8A | ldAC | ldCA | ldAHlInc | ldAHlDec | ldHlIncA
  | ldHlDecA | ldSpHl | ldHlSpE | pushAf | popAf | addAHl | addAD8 | adcAHl | adcAD8 | subHl | subD8 | sbcAHl
  | sbcAD8 | andHl | andD8 | xorHl | xorD8 | orHl | orD8 | cpHl | cpD8 | incHl | decHl | daa | cpl | scf | ccf
  | addSpE | rlca | rrca | rla | rra | rlcHl | rrcHl | rlHl | rrHl | slaHl | sraHl | swapHl | srlHl | jpHl | jrE
  | ret | reti | nop | halt | stop | di | ei | illegalD3 | illegalDB | illegalDD | illegalE3 | illegalE4
  | illegalEB | illegalEC | illegalED | illegalF4 | illegalFC | illegalFD => rfl
  -- a field of the opcode, by the operand's values
  | ldRHl r | ldHlR r | ldRD8 r | addAR r | adcAR r | subR r | sbcAR r | andR r | xorR r | orR r | cpR r | incR r
  | decR r | rlcR r | rrcR r | rlR r | rrR r | slaR r | sraR r | swapR r | srlR r => cases r <;> rfl
  | ldRR dst src => cases dst <;> cases src <;> rfl
  | push rp | pop rp | incRp rp | decRp rp | addHlRp rp => cases rp <;> rfl
  | jrCcE cc | retCc cc => cases cc <;> rfl
  -- 16-bit immediates
  | ldAA16 a | ldA16A a | ldA16Sp a | jpA16 a | callA16 a => exact decode_encodeD16 rest a fun _ _ => rfl
  | ldRpD16 rp v => cases rp <;> exact decode_encodeD16 rest v fun _ _ => rfl
  | jpCcA16 cc a | callCcA16 cc a => cases cc <;> exact decode_encodeD16 rest a fun _ _ => rfl
  -- bit and restart indexes
  | bitBR b r | resBR b r | setBR b r =>
    have hb : b < 8 := of_decide_eq_true hwf
    interval_cases b <;> cases r <;> rfl
  | bitBHl b | resBHl b | setBHl b | rstT b =>
    have hb : b < 8 := of_decide_eq_true hwf
    interval_cases b <;> rfl

/-- Settles O1: the 0xCB entry alone is read back only at the end of the bytes. -/
theorem decodeOfEncode : Obligations.DecodeOfEncode := by
  intro i hwf
  refine ⟨?_, decode_encode_append hwf⟩
  by_cases hi : i = .prefixCb
  · rw [hi]
    rfl
  · simpa using decode_encode_append hwf hi []

end Sys2Proof
end

section
/-! PROOF. What the decoder reads is well formed and its encoding is the bytes read: `EncodeOfDecode` (30_encoding.md
R109, R116, R117). -/

namespace Sys2Proof

variable {i : Instr} {op : Byte}

/-- The instruction is well formed and its encoding is the bytes. -/
structure Instr.Spells (i : Instr) (bytes : List Byte) : Prop where
  wf : i.wf = true
  encode : Sys2Proof.encode i = bytes

/-- The immediates that follow a first byte, out of the two bytes that stand after it. -/
def immediates (op n1 n2 : Byte) : List Byte := [n1, n2].take (immediateCount op)

theorem immediates_of_registers (n1 n2 : Byte) (hx : fieldX op = 1 ∨ fieldX op = 2) :
    immediates op n1 n2 = [] := by
  unfold immediates immediateCount
  obtain hx | hx := hx <;> rw [hx] <;> rfl

theorem spells_of_encodeOp {n : Nat} (hop : opcode n = op) (hwf : i.wf = true) (he : encode i = encodeOp n) :
    i.Spells [op] :=
  ⟨hwf, hop ▸ he⟩

theorem spells_of_encodeCb {n : Nat} (hop : opcode n = op) (hwf : i.wf = true) (he : encode i = encodeCb n) :
    i.Spells [prefixByte, op] :=
  ⟨hwf, hop ▸ he⟩

/-! ## The base table -/

section Blocks

variable {y z : Nat} (hy : y < 8) (hz : z < 8)

include hy hz

theorem decodeBlock0_spells (hop : ∀ n, n = 64 * 0 + 8 * y + z → opcode n = op) (n1 n2 : Byte) :
    (decodeBlock0 y z n1 n2).Spells (op :: immediates op n1 n2) := by
  obtain rfl := hop _ rfl
  obtain rfl | rfl | hz' : z = 0 ∨ z = 1 ∨ 2 ≤ z := by omega
  -- LD (a16),SP is `y = 1`
  · obtain rfl | rfl | hy' : y = 0 ∨ y = 1 ∨ 2 ≤ y := by omega
    · exact ⟨rfl, rfl⟩
    · exact ⟨rfl, encodeD16_wordOf ..⟩
    · interval_cases y <;> exact ⟨rfl, rfl⟩
  -- LD rp,d16 and ADD HL,rp
  · obtain ⟨rp, hrp⟩ := Nat.even_or_odd' y
    have hlt : rp < 4 := by omega
    obtain rfl | rfl := hrp
    · interval_cases rp <;> exact ⟨rfl, encodeD16_wordOf ..⟩
    · interval_cases rp <;> exact ⟨rfl, rfl⟩
  · interval_cases z <;> interval_cases y <;> exact ⟨rfl, rfl⟩

theorem decodeBlock1_spells (hop : ∀ n, n = 64 * 1 + 8 * y + z → opcode n = op) :
    (decodeBlock1 y z).Spells [op] := by
  obtain ⟨rfl, hdst⟩ | ⟨dst, rfl, hdst⟩ := Reg8.ofCode_cases hy <;>
    obtain ⟨rfl, hsrc⟩ | ⟨src, rfl, hsrc⟩ := Reg8.ofCode_cases hz <;>
    simp only [decodeBlock1, hdst, hsrc] <;> exact spells_of_encodeOp (hop _ (by omega)) rfl rfl

theorem decodeBlock2_spells (hop : ∀ n, n = 64 * 2 + 8 * y + z → opcode n = op) :
    (decodeBlock2 y z).Spells [op] := by
  obtain ⟨rfl, hr⟩ | ⟨r, rfl, hr⟩ := Reg8.ofCode_cases hz <;> simp only [decodeBlock2, hr] <;>
    interval_cases y <;> exact spells_of_encodeOp (hop _ rfl) rfl rfl

theorem decodeBlock3_spells (hop : ∀ n, n = 64 * 3 + 8 * y + z → opcode n = op) (n1 n2 : Byte) :
    (decodeBlock3 y z n1 n2).Spells (op :: immediates op n1 n2) := by
  obtain rfl := hop _ rfl
  obtain hz' | rfl | rfl | rfl | rfl | hz' : z < 2 ∨ z = 2 ∨ z = 3 ∨ z = 4 ∨ z = 5 ∨ 6 ≤ z := by omega
  · interval_cases z <;> interval_cases y <;> exact ⟨rfl, rfl⟩
  -- JP cc,a16, then the loads at the high page and at a16
  · obtain hcc | rfl | rfl | rfl | rfl : y < 4 ∨ y = 4 ∨ y = 5 ∨ y = 6 ∨ y = 7 := by omega
    · interval_cases y <;> exact ⟨rfl, encodeD16_wordOf ..⟩
    · exact ⟨rfl, rfl⟩
    · exact ⟨rfl, encodeD16_wordOf ..⟩
    · exact ⟨rfl, rfl⟩
    · exact ⟨rfl, encodeD16_wordOf ..⟩
  -- JP a16 is `y = 0`
  · obtain rfl | hy' : y = 0 ∨ 1 ≤ y := by omega
    · exact ⟨rfl, encodeD16_wordOf ..⟩
    · interval_cases y <;> exact ⟨rfl, rfl⟩
  -- CALL cc,a16
  · obtain hcc | hy' : y < 4 ∨ 4 ≤ y := by omega
    · interval_cases y <;> exact ⟨rfl, encodeD16_wordOf ..⟩
    · interval_cases y <;> exact ⟨rfl, rfl⟩
  -- CALL a16 is `y = 1`
  · obtain rfl | rfl | hy' : y = 0 ∨ y = 1 ∨ 2 ≤ y := by omega
    · exact ⟨rfl, rfl⟩
    · exact ⟨rfl, encodeD16_wordOf ..⟩
    · interval_cases y <;> exact ⟨rfl, rfl⟩
  · interval_cases z <;> interval_cases y <;> exact ⟨rfl, rfl⟩

end Blocks

theorem decodeBase_spells (op n1 n2 : Byte) : (decodeBase op n1 n2).Spells (op :: immediates op n1 n2) := by
  have hop := opcode_of_fields (op := op)
  have hlt := fieldX_lt op
  have hy := fieldY_lt op
  have hz := fieldZ_lt op
  unfold decodeBase
  generalize hx : fieldX op = x at hlt hop
  interval_cases x
  · exact decodeBlock0_spells hy hz hop n1 n2
  · exact immediates_of_registers n1 n2 (.inl hx) ▸ decodeBlock1_spells hy hz hop
  · exact immediates_of_registers n1 n2 (.inr hx) ▸ decodeBlock2_spells hy hz hop
  · exact decodeBlock3_spells hy hz hop n1 n2

/-! ## The secondary table -/

theorem decodeCb_spells (op2 : Byte) : (decodeCb op2).Spells [prefixByte, op2] := by
  have hop := opcode_of_fields (op := op2)
  have hx := fieldX_lt op2
  have hy := fieldY_lt op2
  have hz := Reg8.ofCode_cases (fieldZ_lt op2)
  unfold decodeCb
  generalize fieldX op2 = x, fieldY op2 = y, fieldZ op2 = z at *
  obtain rfl | hx' : x = 0 ∨ 1 ≤ x := by omega
  -- a rotate or shift, by `y`
  · obtain ⟨rfl, hr⟩ | ⟨r, rfl, hr⟩ := hz <;> rw [hr] <;> interval_cases y <;>
      exact spells_of_encodeCb (hop _ rfl) rfl rfl
  -- a bit index, which is `y`
  · interval_cases x <;> obtain ⟨rfl, hr⟩ | ⟨r, rfl, hr⟩ := hz <;> rw [hr] <;>
      exact spells_of_encodeCb (hop _ (by omega)) (decide_eq_true hy) rfl

/-! ## The decoder -/

/-- The byte lists that the decoder reads: 0xCB alone, a secondary-table instruction, or a base-table instruction
with its immediates. -/
theorem decode_cases {bytes rest : List Byte} (h : decode bytes = .ok (i, rest)) :
    (i = .prefixCb ∧ rest = [] ∧ bytes = [prefixByte]) ∨
    (∃ op2, i = decodeCb op2 ∧ bytes = prefixByte :: op2 :: rest) ∨
    ∃ op n1 n2, i = decodeBase op n1 n2 ∧ bytes = op :: (immediates op n1 n2 ++ rest) := by
  unfold decode at h
  unfold immediates
  split at h
  case h_1 => cases h
  case h_2 op tail =>
    split_ifs at h with hop
    · subst hop
      split at h <;> cases h
      · exact .inl ⟨rfl, rfl, rfl⟩
      · exact .inr (.inl ⟨_, rfl, rfl⟩)
    · right; right
      split at h <;> cases h
      case h_1 hn => exact ⟨op, 0, 0, rfl, by rw [hn]; rfl⟩
      case h_2 n1 hn => exact ⟨op, n1, 0, rfl, by rw [hn]; rfl⟩
      case h_3 n1 n2 hn => exact ⟨op, n1, n2, rfl, by rw [hn]; rfl⟩

/-- Settles O2: by the three kinds of byte lists that the decoder reads. -/
theorem encodeOfDecode : Obligations.EncodeOfDecode := by
  intro bytes rest i h
  obtain ⟨rfl, rfl, rfl⟩ | ⟨op2, rfl, rfl⟩ | ⟨op, n1, n2, rfl, rfl⟩ := decode_cases h
  · exact ⟨rfl, rfl⟩
  · obtain ⟨hwf, he⟩ := decodeCb_spells op2
    exact ⟨hwf, by rw [he]; rfl⟩
  · obtain ⟨hwf, he⟩ := decodeBase_spells op n1 n2
    exact ⟨hwf, by rw [he]; rfl⟩

end Sys2Proof
end

section
/-! PROOF. The decoder is total and the eleven undefined bytes are the ILLEGAL rows: `DecodingIsTotal` (30_encoding.md
R109, 40_load8.md R141); and the worked examples of the rules decode: `WrittenWordsDecode` (R111 to R115). -/

namespace Sys2Proof

open Sys2Proof.Machine

theorem immediateCount_le (op : Byte) : immediateCount op ≤ 2 := by
  unfold immediateCount
  repeat' split
  all_goals decide

theorem decode_three_bytes (op n1 n2 : Byte) : ∃ i rest, decode [op, n1, n2] = .ok (i, rest) := by
  by_cases hop : op = prefixByte
  · exact ⟨decodeCb n1, [n2], by rw [hop]; rfl⟩
  · have hle := immediateCount_le op
    simp only [decode, if_neg hop]
    generalize immediateCount op = k at hle
    interval_cases k <;> exact ⟨_, _, rfl⟩

/-- The ILLEGAL rows are well formed, are not the 0xCB entry, and are encoded in their one byte. -/
theorem undefinedRows_spell : ∀ row ∈ undefinedRows,
    row.2.wf = true ∧ row.2 ≠ .prefixCb ∧ encode row.2 = [row.1] := by decide

theorem decodeCb_not_undefined (op2 : Byte) : ∀ row ∈ undefinedRows, row.2 ≠ decodeCb op2 := by
  intro row hrow h
  obtain ⟨-, -, he⟩ := undefinedRows_spell row hrow
  rw [h, (decodeCb_spells op2).encode] at he
  simp at he

/-- `LD r,r` gives the register the byte it holds, in the one cycle of NOP (R141, R350). -/
theorem exec_ldRR_self (r : Reg8) (s : State) : exec (.ldRR r r) s = exec .nop s := by
  have hr : s.setReg r (s.reg r) = s := by cases r <;> rfl
  change (done 1 (s.setReg r (s.reg r))).finish = (done 1 s).finish
  rw [hr]

/-- Settles O3: an ILLEGAL row is read back from its byte (`decode_encode_append`), and from no other
(`encodeOfDecode`). -/
theorem decodingIsTotal : Obligations.DecodingIsTotal := by
  refine ⟨decode_three_bytes, ?_, ?_, fun op2 rest => ⟨decodeCb op2, rfl, decodeCb_ne_prefixCb op2,
    decodeCb_not_undefined op2⟩, by decide +kernel, fun r s => ?_⟩
  · intro op i rest hrow
    obtain ⟨hwf, hne, he⟩ := undefinedRows_spell _ hrow
    have h := decode_encode_append hwf hne rest
    rwa [he] at h
  · intro op op' i rest rest' hrow h
    obtain ⟨-, he⟩ := encodeOfDecode _ _ _ h
    obtain ⟨-, -, he'⟩ := undefinedRows_spell _ hrow
    rw [he'] at he
    exact (List.cons.inj he).1.symm
  · exact exec_ldRR_self r s

/-- Settles O4: the decoder computes each of the words. -/
theorem writtenWordsDecode : Obligations.WrittenWordsDecode := by
  unfold Obligations.WrittenWordsDecode
  and_intros <;> rfl

end Sys2Proof
end

section
/-! PROOF. A fetch is a bus read: `FetchFaults` and `PrefixRunsSecondTable` (30_encoding.md R101, R102). -/

namespace Sys2Proof.Machine

variable {s t : State} {op v : Byte}

/-! ## A fetch -/

theorem fetch8_of_raised (h : busRead s.pc s = .raised t) : fetch8 s = .raised t := by
  rw [fetch8, h, Res.bind_raised]

theorem fetch8_of_ok (h : busRead s.pc s = .ok v t) : fetch8 s = .ok v { t with pc := s.pc + 1 } := by
  rw [fetch8, h, Res.bind_ok, (BusOnly.of_read h).pc]

theorem fetch8_unmapped (h : decodeAddr s.bus s.pc = none) :
    fetch8 s = .raised (s.latched (.unmappedAddress s.pc .read)) :=
  fetch8_of_raised (busRead_unmapped h)

theorem pc_of_busRead_raised {a : Word} (h : busRead a s = .raised t) : t.pc = s.pc := by
  have := busRead_busOnly a s
  rw [h] at this
  exact this.pc

theorem exec_prefixCb_of_raised (h : fetch8 s = .raised t) : exec .prefixCb s = .next t := by
  change execPrefixCb s = _
  rw [execPrefixCb, h]

/-! ## A step whose fetch faults -/

theorem normalDispatch_of_opcode_raised (h : fetch8 s = .raised t) : normalDispatch s = .next t := by
  rw [normalDispatch, fetchInstr, h, Res.bind_raised]

theorem fetchInstr_of_immediate_raised {u : State} (h : fetch8 s = .ok op t) (hn : immediateCount op ≠ 0)
    (hu : fetch8 t = .raised u) : fetchInstr s = .raised u := by
  rw [fetchInstr, h, Res.bind_ok]
  split
  case h_1 h0 => exact absurd h0 hn
  all_goals rw [hu, Res.bind_raised]

/-- The second byte is the second opcode or an immediate (R101, R102). -/
theorem normalDispatch_of_second_raised (hop : op = prefixByte ∨ immediateCount op ≠ 0)
    (h : s.reads s.pc op) (ht : fetch8 (s.past 1) = .raised t) : normalDispatch s = .next t := by
  obtain rfl | hn := hop
  · rw [normalDispatch, fetchInstr_prefixByte (rest := []) ⟨h, trivial⟩]
    exact exec_prefixCb_of_raised ht
  · rw [normalDispatch, fetchInstr_of_immediate_raised (fetch8_of_reads h) hn ht]

/-- Settles O22: the fetch through the bus read at PC, and the step through the fetch that raises. -/
theorem fetchFaults : Obligations.FetchFaults := by
  refine ⟨fun s => ⟨fetch8_unmapped, fun t h => ⟨fetch8_of_raised h, pc_of_busRead_raised h⟩,
    fun v t h => ?_⟩, fun s hs h => ?_, fun s op hs hr hop h => ?_⟩
  · rw [fetch8_of_ok h, BitVec.ofNat_add, BitVec.ofNat_toNat, BitVec.setWidth_eq]
    rfl
  · rw [step_of_dispatches hs, normalDispatch_of_opcode_raised (fetch8_unmapped h)]
  · rw [step_of_dispatches hs]
    exact normalDispatch_of_second_raised hop hr (fetch8_unmapped (s := s.past 1) h)

/-! ## The secondary table -/

theorem exec_next (i : Instr) (s : State) : ∃ t, exec i s = .next t := by
  obtain ⟨t, ht, -⟩ := exec_ended i s
  exact ⟨t, ht⟩

theorem decode_single (hn : immediateCount op = 0) : ∃ i, decode [op] = .ok (i, []) := by
  by_cases hop : op = prefixByte
  · exact ⟨.prefixCb, by rw [hop]; rfl⟩
  · exact ⟨decodeBase op 0 0, by simp only [decode, if_neg hop, hn]⟩

/-- Settles O21: the 0xCB entry through `fetch8` and the instruction its second byte decodes to, the step through
`stepRunsDecodedInstruction`. -/
theorem prefixRunsSecondTable : Obligations.PrefixRunsSecondTable := by
  refine ⟨fun s => readsThen_of (fun t h => exec_prefixCb_of_raised (fetch8_of_raised h)) fun op2 t h => ?_,
    fun s op hs hr hn => ?_⟩
  · obtain ⟨u, hu⟩ := exec_next (decodeCb op2) { t with pc := s.pc + 1 }
    exact ⟨decodeCb op2, u, rfl, (exec_prefixCb_of_fetch (fetch8_of_ok h)).trans hu, hu⟩
  · obtain ⟨i, hi⟩ := decode_single hn
    exact ⟨i, hi, stepRunsDecodedInstruction s [op] i hs hi ⟨hr, trivial⟩⟩

end Sys2Proof.Machine
end

section
/-! PROOF. The 8-bit loads and stores: `RegisterLoads`, `LoadsFromMemory` and `StoresToMemory` (40_load8.md R141 to
R159, 41_load16_stack.md R170, R172). -/

namespace Sys2Proof.Machine

/-! ## Encodings -/

/-- The decoder's half is `decode_encode_append`. -/
theorem encodes_of {i : Instr} {bs : List Byte} (he : encode i = bs) (hwf : i.wf = true) (hi : i ≠ .prefixCb) :
    Encodes i bs :=
  ⟨he, fun rest => he ▸ decode_encode_append hwf hi rest⟩

/-! ## The ends of an operation -/

theorem finish_done {s : State} {c : BitVec 64} (n : Nat) (h : s.cyc = c) :
    (done n s).finish = .next { s with cyc := c + BitVec.ofNat 64 n } := by
  subst h
  rfl

/-- An outcome that reads the bus and goes on with `k`, which a raised read ends (R68, R420). -/
theorem readsThen_of_bind {s : State} {a : Word} {o : Out} {K : Byte → State → Prop} (k : Byte → State → Res Unit)
    (ho : o = ((busRead a s).bind k).finish) (hk : ∀ v t, BusOnly s t → o = (k v t).finish → K v t) :
    ReadsThen s a o K := by
  subst ho
  refine readsThen_of (fun t h => ?_) fun v t h => hk v t (BusOnly.of_read h) ?_
  · rw [h, Res.bind_raised]
    rfl
  · rw [h, Res.bind_ok]

/-- An outcome that writes to the bus and goes on with `k`, which a raised write ends (R69, R420). -/
theorem writesThen_of_bind {s : State} {a : Word} {v : Byte} {o : Out} {K : State → Prop} (k : State → Res Unit)
    (ho : o = ((busWrite a v s).bind fun _ => k).finish) (hk : ∀ t, BusOnly s t → o = (k t).finish → K t) :
    WritesThen s a v o K := by
  subst ho
  refine writesThen_of (fun t h => ?_) fun t h => hk t (BusOnly.of_write h) ?_
  · rw [h, Res.bind_raised]
    rfl
  · rw [h, Res.bind_ok]

/-! ## The shared loads and stores -/

theorem loadReg_readsThen (r : Reg8) (a : Word) (n : Nat) (s : State) :
    ReadsThen s a (loadReg r a n s).finish fun v t =>
      (loadReg r a n s).finish = .next { t.setReg r v with cyc := t.cyc + BitVec.ofNat 64 n } :=
  readsThen_of_bind _ rfl fun v t _ h => h.trans (finish_done n (t.setReg_cyc r v))

/-- HL steps from the value it had before the access, which the access leaves alone (R140 mode 4). -/
theorem loadStepHl_readsThen (step : Word) (n : Nat) (s : State) :
    ReadsThen s s.hl (loadStepHl step n s).finish fun v t =>
      (loadStepHl step n s).finish =
        .next { t.setHl (s.hl + step) with a := v, cyc := t.cyc + BitVec.ofNat 64 n } :=
  readsThen_of_bind _ rfl fun v t ht h => by
    rw [h, ht.hl]
    rfl

theorem storeByte_writesThen (a : Word) (v : Byte) (n : Nat) (s : State) :
    WritesThen s a v (storeByte a v n s).finish fun t =>
      (storeByte a v n s).finish = .next { t with cyc := t.cyc + BitVec.ofNat 64 n } :=
  writesThen_of_bind _ rfl fun _ _ h => h

theorem storeStepHl_writesThen (step : Word) (n : Nat) (s : State) :
    WritesThen s s.hl s.a (storeStepHl step n s).finish fun t =>
      (storeStepHl step n s).finish =
        .next { t.setHl (s.hl + step) with cyc := t.cyc + BitVec.ofNat 64 n } :=
  writesThen_of_bind _ rfl fun t ht h => by
    rw [h, ht.hl]
    rfl

/-! ## The obligations -/

/-- Settles O41: each meaning is its write and `done`, and neither write touches the counter. -/
theorem registerLoads : Obligations.RegisterLoads := by
  intro s
  refine ⟨fun r r' => ⟨encodes_of rfl rfl nofun, ?_⟩, fun r v => ⟨encodes_of rfl rfl nofun, ?_⟩,
    fun rp lo hi => ⟨encodes_of (encodeD16_wordOf _ hi lo) rfl nofun, ?_⟩, encodes_of rfl rfl nofun, ?_⟩
  · exact finish_done 1 (s.setReg_cyc r (s.reg r'))
  · exact finish_done 2 (s.setReg_cyc r v)
  · exact finish_done 3 (s.setPair_cyc rp (hi ++ lo))
  · exact finish_done 2 (s := { s with sp := s.hl }) rfl

/-- Settles O42: each load is `loadReg` or `loadStepHl` at the address of its rule. -/
theorem loadsFromMemory : Obligations.LoadsFromMemory := by
  intro s
  refine ⟨fun r => ⟨encodes_of rfl rfl nofun, loadReg_readsThen r s.hl 2 s⟩,
    ⟨encodes_of rfl rfl nofun, loadReg_readsThen .a s.bc 2 s⟩,
    ⟨encodes_of rfl rfl nofun, loadReg_readsThen .a s.de 2 s⟩,
    fun lo hi => ⟨encodes_of (encodeD16_wordOf _ hi lo) rfl nofun, loadReg_readsThen .a (hi ++ lo) 4 s⟩,
    fun n => ⟨encodes_of rfl rfl nofun, ?_⟩, ⟨encodes_of rfl rfl nofun, ?_⟩,
    ⟨encodes_of rfl rfl nofun, loadStepHl_readsThen 1 2 s⟩, ⟨encodes_of rfl rfl nofun, ?_⟩⟩
  · rw [← highPage_eq]
    exact loadReg_readsThen .a (highPage n) 3 s
  · rw [← highPage_eq]
    exact loadReg_readsThen .a (highPage s.c) 2 s
  · rw [BitVec.sub_eq_add_neg]
    exact loadStepHl_readsThen (-1) 2 s

/-- Settles O43: each store is `storeByte` or `storeStepHl` at the address of its rule. -/
theorem storesToMemory : Obligations.StoresToMemory := by
  intro s
  refine ⟨fun r => ⟨encodes_of rfl rfl nofun, storeByte_writesThen s.hl (s.reg r) 2 s⟩,
    fun v => ⟨encodes_of rfl rfl nofun, storeByte_writesThen s.hl v 3 s⟩,
    ⟨encodes_of rfl rfl nofun, storeByte_writesThen s.bc s.a 2 s⟩,
    ⟨encodes_of rfl rfl nofun, storeByte_writesThen s.de s.a 2 s⟩,
    fun lo hi => ⟨encodes_of (encodeD16_wordOf _ hi lo) rfl nofun, storeByte_writesThen (hi ++ lo) s.a 4 s⟩,
    fun n => ⟨encodes_of rfl rfl nofun, ?_⟩, ⟨encodes_of rfl rfl nofun, ?_⟩,
    ⟨encodes_of rfl rfl nofun, storeStepHl_writesThen 1 2 s⟩, ⟨encodes_of rfl rfl nofun, ?_⟩⟩
  · rw [← highPage_eq]
    exact storeByte_writesThen (highPage n) s.a 3 s
  · rw [← highPage_eq]
    exact storeByte_writesThen (highPage s.c) s.a 2 s
  · rw [BitVec.sub_eq_add_neg]
    exact storeStepHl_writesThen (-1) 2 s

end Sys2Proof.Machine
end

section
/-! PROOF. The stack instructions and `LD (a16),SP`: `StackInstructions` (41_load16_stack.md R171, R174 to R179). -/

namespace Sys2Proof.Machine

/-- Two bytes written one after the other; a raised write ends the sequence before the next (R12, R84). -/
theorem memWrite16_writesThen (a v : Word) (n : Nat) (s : State) :
    let o := ((memWrite16 a v s).bind fun _ t => done n t).finish
    WritesThen s a (v.extractLsb' 0 8) o fun t =>
      WritesThen t (a + 1) (v.extractLsb' 8 8) o fun u =>
        o = .next { u with cyc := u.cyc + BitVec.ofNat 64 n } := by
  intro o
  rw [← lowByte_eq_extract, ← highByte_eq_extract]
  refine writesThen_of_bind (fun t => (busWrite (a + 1) (highByte v) t).bind fun _ u => done n u) ?_
    fun t _ ht => writesThen_of_bind (done n) ht fun u _ hu => hu.trans (finish_done n rfl)
  change ((memWrite16 a v s).bind fun _ t => done n t).finish = _
  unfold memWrite16
  cases busWrite a (lowByte v) s <;> rfl

/-- What `POP AF` makes of the two popped bytes (R179). -/
theorem State.setAf_wordOf (s : State) (hi lo : Byte) :
    s.setAf (wordOf hi lo) = { s with a := hi, f := Flags.ofByte lo } := by
  rw [State.setAf, wordOf, highByte_append, lowByte_append]

/-- Settles O44: the meanings are `memWrite16`, `push16` and `pop16` with a continuation that ends a raised step. -/
theorem stackInstructions : Obligations.StackInstructions := by
  intro s
  refine ⟨fun lo hi => ⟨encodes_of (encodeD16_wordOf _ hi lo) rfl nofun, memWrite16_writesThen _ s.sp 5 s⟩,
    fun rp => ⟨encodes_of rfl rfl nofun, ?push⟩, ⟨encodes_of rfl rfl nofun, ?pushAf⟩,
    fun rp => ⟨encodes_of rfl rfl nofun, ?pop⟩, encodes_of rfl rfl nofun, ?popAf⟩
  case push | pushAf =>
    exact pushesThen_of (fun x => (x.bind fun _ t => done 4 t).finish) rfl (fun _ => rfl) fun _ _ h => h
  case pop =>
    exact popsThen_of (fun x => (x.bind fun v t => done 3 (t.setStackPair rp v)).finish) rfl (fun _ => rfl)
      fun hi lo t _ h => h.trans (finish_done 3 (t.setStackPair_cyc rp (hi ++ lo)))
  case popAf =>
    refine popsThen_of (fun x => (x.bind fun v t => done 3 (t.setAf v)).finish) rfl (fun _ => rfl)
      fun hi lo t _ h => h.trans ?_
    rw [Res.bind_ok, State.setAf_wordOf]
    rfl

end Sys2Proof.Machine
end

section
/-! PROOF. What is pushed on plain storage pops back: `PushPopRoundTrip` (41_load16_stack.md R180). -/

namespace Sys2Proof.Machine

variable {s t u : State} {a v : Word} {i j k : Nat}

/-! ## Plain storage -/

/-- The address names the byte `j` of plain storage. -/
def PlainAt (bus : List Connection) (a : Word) (j : Nat) : Prop :=
  ∃ c, decodeAddr bus a = some c ∧ c.port = .ram ∧ c.place a = .ok (.cell j)

/-- The cell of plain storage is the one the bus operations act on. -/
theorem PlainAt.cell (h : PlainAt s.bus a j) : ∃ c, decodeAddr s.bus a = some c ∧ c.port = .ram ∧
    c.owner.base + (a - c.startAddr).toNat = j := by
  obtain ⟨c, hd, hp, hpl⟩ := h
  rw [Connection.place_cell (.inr (.inl hp)) a] at hpl
  cases hpl
  exact ⟨c, hd, hp, rfl⟩

theorem PlainAt.busRead (h : PlainAt s.bus a j) : busRead a s = .ok (s.mem.read j) s := by
  obtain ⟨c, hd, hp, rfl⟩ := h.cell
  exact busRead_cell hd (.inr hp)

theorem PlainAt.busWrite (h : PlainAt s.bus a j) (v : Byte) :
    busWrite a v s = .ok () { s with mem := s.mem.write j v } := by
  obtain ⟨c, hd, hp, rfl⟩ := h.cell
  exact busWrite_ram v hd hp

/-! ## A push and the pop after it -/

/-- The storage after `push16(v)`, the bytes at SP-1 and SP-2 being `j` and `k`. -/
def Memory.pushed (m : Memory) (j k : Nat) (v : Word) : Memory :=
  (m.write j (highByte v)).write k (lowByte v)

theorem Memory.read_pushed_high {m : Memory} (hm : m.wf = true) (hjk : j ≠ k) (v : Word) :
    (m.pushed j k v).read j = highByte v := by
  rw [Memory.pushed, Memory.read_write_other _ _ hjk, Memory.read_write_same _ hm]

theorem Memory.read_pushed_low {m : Memory} (hm : m.wf = true) (j k : Nat) (v : Word) :
    (m.pushed j k v).read k = lowByte v :=
  Memory.read_write_same _ (Memory.write_wf _ _ hm)

theorem Memory.read_pushed_other {m : Memory} (hj : i ≠ j) (hk : i ≠ k) (v : Word) :
    (m.pushed j k v).read i = m.read i := by
  rw [Memory.pushed, Memory.read_write_other _ _ hk, Memory.read_write_other _ _ hj]

/-- SP-1 and SP-2 name two distinct bytes of plain storage in canonical form (R180). -/
structure State.StackPlain (s : State) (j k : Nat) : Prop where
  wf : s.mem.wf = true
  ne : j ≠ k
  high : PlainAt s.bus (s.sp - 1) j
  low : PlainAt s.bus (s.sp - 2) k

theorem State.StackPlain.push16 (h : s.StackPlain j k) (v : Word) :
    push16 v s = .ok () { s with sp := s.sp - 2, mem := s.mem.pushed j k v } := by
  have hsp : s.sp - 1 - 1 = s.sp - 2 := by bv_omega
  have hhigh : pushByte (highByte v) s = .ok () { s with sp := s.sp - 1, mem := s.mem.write j (highByte v) } :=
    PlainAt.busWrite (s := { s with sp := s.sp - 1 }) h.high _
  rw [Machine.push16, hhigh, Res.bind_ok, pushByte, hsp]
  exact PlainAt.busWrite (s := { s with sp := s.sp - 2, mem := s.mem.write j (highByte v) }) h.low _

/-- A pop finds the pushed word wherever the storage, the connections and SP are those the push left. -/
theorem State.StackPlain.pop16 (h : s.StackPlain j k) (hmem : t.mem = s.mem.pushed j k v)
    (hbus : t.bus = s.bus) (hsp : t.sp = s.sp - 2) : pop16 t = .ok v { t with sp := s.sp } := by
  have hsp1 : s.sp - 2 + 1 = s.sp - 1 := by bv_omega
  have hsp2 : s.sp - 1 + 1 = s.sp := by bv_omega
  have hlow : busRead t.sp t = .ok (lowByte v) t := by
    rw [PlainAt.busRead (by rw [hbus, hsp]; exact h.low), hmem, Memory.read_pushed_low h.wf]
  have hhigh : busRead (s.sp - 1) { t with sp := s.sp - 1 } = .ok (highByte v) { t with sp := s.sp - 1 } := by
    rw [PlainAt.busRead (by rw [hbus]; exact h.high), hmem, Memory.read_pushed_high h.wf h.ne]
  rw [Machine.pop16, popByte, hlow, Res.bind_ok, Res.bind_ok, popByte, hsp, hsp1, hhigh, Res.bind_ok,
    Res.bind_ok, wordOf_high_low, hsp2]

/-! ## PUSH and POP -/

/-- A push of `v` and a pop that writes `v` where it came from: only the two bytes and the counter change. -/
theorem State.StackPlain.push_then_pop {push pop : Instr} {write : State → Word → State}
    (h : s.StackPlain j k)
    (hpush : exec push s = ((Machine.push16 v s).bind fun _ t => done 4 t).finish)
    (hpop : ∀ t, exec pop t = ((Machine.pop16 t).bind fun w u => done 3 (write u w)).finish)
    (hwrite : ∀ m c, write { s with mem := m, cyc := c } v = { s with mem := m, cyc := c }) :
    ∃ t u, exec push s = .next t ∧ exec pop t = .next u ∧
      u = { s with mem := u.mem, cyc := s.cyc + 7 } ∧
      ∀ p, p ≠ .cell j → p ≠ .cell k → u.content p = s.content p := by
  have hcyc : s.cyc + 4 + 3 = s.cyc + 7 := by bv_omega
  refine ⟨{ s with sp := s.sp - 2, mem := s.mem.pushed j k v, cyc := s.cyc + 4 },
    { s with mem := s.mem.pushed j k v, cyc := s.cyc + 7 }, ?_, ?_, rfl, fun p hj hk => ?_⟩
  · rw [hpush, h.push16 v]
    rfl
  · rw [hpop, h.pop16 (t := { s with sp := s.sp - 2, mem := s.mem.pushed j k v, cyc := s.cyc + 4 }) rfl rfl rfl,
      Res.bind_ok, hwrite, ← hcyc]
    rfl
  · cases p with
    | cell i =>
      have hread : (s.mem.pushed j k v).read i = s.mem.read i :=
        Memory.read_pushed_other (fun e => hj (congrArg _ e)) (fun e => hk (congrArg _ e)) v
      exact congrArg BitVec.toNat hread
    | ifReg | ieReg | device o => rfl

/-- Writing a pair with its own value changes nothing. -/
theorem State.setStackPair_stackPair (s : State) (rp : Rp2) : s.setStackPair rp (s.stackPair rp) = s := by
  cases rp <;>
    simp only [State.setStackPair, State.stackPair, State.setBc, State.setDe, State.setHl, State.bc, State.de,
      State.hl, wordOf, highByte_append, lowByte_append]

theorem Flags.ofByte_toByte (f : Flags) : Flags.ofByte f.toByte = f := by
  obtain ⟨-, hz, hn, hh, hc, -⟩ := flagRegisterLayout f
  rw [Flags.ofByte, hz, hn, hh, hc]

/-- AF too: the four flags are all there is of F (R179). -/
theorem State.setAf_af (s : State) : s.setAf s.af = s := by
  rw [State.setAf, State.af, wordOf, highByte_append, lowByte_append, Flags.ofByte_toByte]

theorem State.StackPlain.pair_round_trip (h : s.StackPlain j k) (rp : Rp2) :
    ∃ t u, exec (.push rp) s = .next t ∧ exec (.pop rp) t = .next u ∧
      u = { s with mem := u.mem, cyc := s.cyc + 7 } ∧
      ∀ p, p ≠ .cell j → p ≠ .cell k → u.content p = s.content p :=
  h.push_then_pop (write := fun u w => u.setStackPair rp w) rfl (fun _ => rfl) fun m c => by
    have := State.setStackPair_stackPair { s with mem := m, cyc := c } rp
    cases rp <;> exact this

/-! ## Calls and returns -/

/-- `i` calls in state `s`: CALL, a taken CALL cc, or an RST of the table (R326, R327, R331). -/
def State.TakesCall (s : State) (i : Instr) : Prop :=
  (∃ a, i = .callA16 a) ∨ (∃ cc a, i = .callCcA16 cc a ∧ s.cond cc = true) ∨ ∃ n, n < 8 ∧ i = .rstT n

/-- `r` returns in a state with the flags of `s`: RET, RETI or a taken RET cc (R328 to R330). -/
def State.TakesReturn (s : State) (r : Instr) : Prop :=
  r = .ret ∨ r = .reti ∨ ∃ cc, r = .retCc cc ∧ s.cond cc = true

theorem ifCond_taken {cc : Cond} (h : s.cond cc = true) (x : State → Res Unit) (n : Nat) :
    ifCond cc x n s = x s := if_pos h

theorem withIndex_of_lt {b : Nat} (h : b < 8) (x : State → Res Unit) (s : State) : withIndex b x s = x s :=
  if_pos h

theorem State.cond_congr (h : t.f = s.f) (cc : Cond) : t.cond cc = s.cond cc := by
  cases cc <;> simp only [State.cond, h]

/-- Every call pushes PC and jumps. -/
theorem State.TakesCall.exec_eq {i : Instr} (h : s.TakesCall i) : ∃ a n, exec i s = (call a n s).finish := by
  obtain ⟨a, rfl⟩ | ⟨cc, a, rfl, hcc⟩ | ⟨n, hn, rfl⟩ := h
  · exact ⟨a, 6, rfl⟩
  · exact ⟨a, 6, congrArg Res.finish (ifCond_taken hcc _ _)⟩
  · exact ⟨restartTarget n, 4, congrArg Res.finish (withIndex_of_lt hn _ s)⟩

/-- Every return pops PC, and writes besides only the counter and IME. -/
theorem State.TakesReturn.exec_eq {r : Instr} (h : s.TakesReturn r) (hf : t.f = s.f)
    (hp : Machine.pop16 t = .ok v u) : ∃ c b, exec r t = .next { u with pc := v, cyc := c, ime := b } := by
  have hreturn (n : Nat) : (returnTo n t).finish = .next { u with pc := v, cyc := u.cyc + BitVec.ofNat 64 n } := by
    rw [returnTo, hp]
    rfl
  obtain rfl | rfl | ⟨cc, rfl, hcc⟩ := h
  · exact ⟨_, _, hreturn 4⟩
  · refine ⟨u.cyc + 4, true, ?_⟩
    change ((returnFromInterrupt t).bind _).finish = _
    rw [returnFromInterrupt, hp]
    rfl
  · rw [← State.cond_congr hf] at hcc
    exact ⟨_, _, (congrArg Res.finish (ifCond_taken hcc _ _)).trans (hreturn 5)⟩

/-- A call or an Interrupt-Service has taken `s` to `t`: PC stands on the stack, and besides it only PC itself, the
counter, IME, IF and the lock may differ. -/
def State.PcPushed (s : State) (j k : Nat) (t : State) : Prop :=
  t = { s with sp := s.sp - 2, mem := s.mem.pushed j k s.pc, pc := t.pc, cyc := t.cyc, ime := t.ime,
               ifl := t.ifl, lock := t.lock }

theorem State.StackPlain.return_restores {r : Instr} (h : s.StackPlain j k) (hr : s.TakesReturn r)
    (ht : s.PcPushed j k t) : ∃ u, exec r t = .next u ∧
      u = { s with mem := u.mem, cyc := u.cyc, ime := u.ime, ifl := t.ifl, lock := t.lock } := by
  unfold State.PcPushed at ht
  have hpop : Machine.pop16 t = .ok s.pc { t with sp := s.sp } :=
    h.pop16 (by rw [ht]) (by rw [ht]) (by rw [ht])
  obtain ⟨c, b, he⟩ := hr.exec_eq (by rw [ht]) hpop
  exact ⟨_, he, by rw [ht]⟩

theorem State.StackPlain.call_then_return {i : Instr} (h : s.StackPlain j k) (hi : s.TakesCall i) :
    ∃ t, exec i s = .next t ∧ ∀ r, s.TakesReturn r → ∃ u, exec r t = .next u ∧
      u = { s with mem := u.mem, cyc := u.cyc, ime := u.ime } := by
  obtain ⟨a, n, he⟩ := hi.exec_eq
  rw [call, h.push16 s.pc] at he
  exact ⟨_, he, fun r hr => h.return_restores hr rfl⟩

theorem State.StackPlain.interrupt_then_return (h : s.StackPlain j k) (q : Source) :
    ∃ t, interruptService q s = .ok () t ∧ ∀ r, s.TakesReturn r → ∃ u, exec r t = .next u ∧
      u = { s with mem := u.mem, cyc := u.cyc, ime := u.ime, ifl := u.ifl, lock := u.lock } := by
  have hentered : (s.entered q).StackPlain j k := ⟨h.wf, h.ne, h.high, h.low⟩
  obtain ⟨t, he, ht⟩ : ∃ t, interruptService q s = .ok () t ∧ s.PcPushed j k t :=
    ⟨_, by rw [interruptService_eq, hentered.push16 s.pc, Res.bind_ok], by rfl⟩
  refine ⟨t, he, fun r hr => ?_⟩
  obtain ⟨u, hret, hu⟩ := h.return_restores hr ht
  exact ⟨u, hret, by rw [hu]⟩

/-- Settles O45: a pop gives back the pushed word, POP writes it where PUSH took it, and a return jumps to it. -/
theorem pushPopRoundTrip : Obligations.PushPopRoundTrip := by
  intro s j k hwf hne hhigh hlow
  have h : s.StackPlain j k := ⟨hwf, hne, hhigh, hlow⟩
  refine ⟨?_, fun i hi => h.call_then_return hi, fun q => h.interrupt_then_return q⟩
  rintro i (_ | ⟨_, _ | ⟨_, _ | ⟨_, _ | ⟨_, hi⟩⟩⟩⟩)
  · exact h.pair_round_trip .bc
  · exact h.pair_round_trip .de
  · exact h.pair_round_trip .hl
  · exact h.push_then_pop rfl (fun _ => rfl) fun m c => State.setAf_af { s with mem := m, cyc := c }
  · cases hi

end Sys2Proof.Machine
end

section
/-! PROOF. 16-bit arithmetic: `SixteenBitArithmetic` (43_alu16.md R250 to R254, 41_load16_stack.md R173). -/

namespace Sys2Proof.Machine

/-- `SP + e` on integers, the displacement being signed (R254). -/
theorem spPlusE_toNat (sp : Word) (e : Byte) : ((spPlusE sp e).toNat : Int) = (sp.toNat + e.toInt) % 65536 := by
  have h : spPlusE sp e = BitVec.ofInt 16 (sp.toNat + e.toInt) := by
    rw [BitVec.ofInt_add, BitVec.ofInt_natCast, BitVec.ofNat_toNat, BitVec.setWidth_eq]
    rfl
  rw [h, BitVec.toNat_ofInt]
  omega

/-- The 17-bit sum is the 16-bit one with the carry above it (R252). -/
theorem add_toNat_with_carry (v w : Word) (f : Flags) :
    (v + w).toNat + 65536 * bitNat (addHlFlags v w f).c = v.toNat + w.toNat := by
  have hv := v.isLt
  have hw := w.isLt
  rw [BitVec.toNat_add]
  simp only [addHlFlags, bitNat, decide_eq_true_eq]
  split <;> omega

theorem State.hl_setHl (s : State) (v : Word) : (s.setHl v).hl = v := wordOf_high_low v

/-- Settles O52: each meaning is one write and `done`, and what it writes is the sum of its rule. -/
theorem sixteenBitArithmetic : Obligations.SixteenBitArithmetic := by
  intro s
  refine ⟨fun rp => ⟨encodes_of rfl rfl nofun, ?inc⟩, fun rp => ⟨encodes_of rfl rfl nofun, ?dec⟩,
    fun rp => ⟨encodes_of rfl rfl nofun, ?addHl⟩,
    fun e => ⟨spPlusE s.sp e, spPlusEFlags s.sp e, spPlusE_toNat s.sp e, rfl, rfl, decide_eq_true_iff,
      decide_eq_true_iff, encodes_of rfl rfl nofun, rfl, encodes_of rfl rfl nofun, rfl⟩⟩
  case inc =>
    have h : s.pair rp + 1 = BitVec.ofNat 16 ((s.pair rp).toNat + 1) := by bv_omega
    rw [← h]
    exact finish_done 2 (s.setPair_cyc rp _)
  case dec =>
    have h : s.pair rp - 1 = BitVec.ofNat 16 ((s.pair rp).toNat + 65535) := by bv_omega
    rw [← h]
    exact finish_done 2 (s.setPair_cyc rp _)
  case addHl =>
    refine ⟨_, rfl, ?sum, decide_eq_true_iff, rfl, rfl, rfl⟩
    case sum =>
      have h := add_toNat_with_carry s.hl (s.pair rp) s.f
      rwa [← State.hl_setHl s (s.hl + s.pair rp)] at h

end Sys2Proof.Machine
end

section
/-! PROOF. The accumulator operations on an operand: `AddAndAdc`, `SubSbcAndCompare` and `LogicOperations`
(42_alu8.md R191 to R223). -/

namespace Sys2Proof.Machine

/-! ## Results and flags as numbers -/

theorem beq_zero_iff_toNat (v : Byte) : (v == 0) = true ↔ v.toNat = 0 := by
  rw [beq_iff_eq, ← BitVec.toNat_inj]
  rfl

/-- The nine-bit sum and the sum of the low nibbles, each with its carry above it (R191). -/
theorem aluAdd_sums (a b : Byte) (cin : Bool) :
    (aluAdd a b cin).r.toNat + 256 * bitNat (aluAdd a b cin).f.c = a.toNat + b.toNat + bitNat cin ∧
    (aluAdd a b cin).r.toNat % 16 + 16 * bitNat (aluAdd a b cin).f.h =
      a.toNat % 16 + b.toNat % 16 + bitNat cin := by
  have ha := a.isLt
  have hb := b.isLt
  have hcin : carryIn cin ≤ 1 := by cases cin <;> decide
  change _ = _ + carryIn cin ∧ _ = _ + carryIn cin
  simp only [aluAdd, bitNat, decide_eq_true_eq, BitVec.toNat_ofNat]
  constructor <;> split <;> omega

/-- The differences of the bytes and of their low nibbles, each with its borrow (R192). -/
theorem aluSub_differs (a b : Byte) (cin : Bool) : Differs a b cin (aluSub a b cin).r (aluSub a b cin).f := by
  have ha := a.isLt
  have hb := b.isLt
  have hcin : carryIn cin ≤ 1 := by cases cin <;> decide
  have hr : (aluSub a b cin).r.toNat = (a.toNat + 512 - b.toNat - carryIn cin) % 256 := by
    simp only [aluSub, BitVec.toNat_sub, BitVec.toNat_ofNat]
    omega
  refine ⟨?borrow, ?halfBorrow, beq_zero_iff_toNat _, rfl⟩
  all_goals
    change _ + carryIn cin = _
    rw [hr]
    simp only [aluSub, bitNat, decide_eq_true_eq]
    split <;> omega

/-! ## The write-backs -/

theorem writeAcc_adds (s : State) (b : Byte) (cin : Bool) (n : Nat) :
    ∃ t, (writeAcc (aluAdd s.a b cin) n s).finish = .next t ∧ AddsTo s t b cin n :=
  have ⟨hsum, hnibble⟩ := aluAdd_sums s.a b cin
  ⟨_, rfl, hsum, hnibble, beq_zero_iff_toNat _, rfl, rfl⟩

theorem writeAcc_subs (s : State) (b : Byte) (cin : Bool) (n : Nat) :
    ∃ t, (writeAcc (aluSub s.a b cin) n s).finish = .next t ∧ SubsFrom s t b cin n :=
  ⟨_, rfl, aluSub_differs s.a b cin, rfl⟩

theorem writeFlags_compares (s : State) (b : Byte) (n : Nat) :
    ∃ t, (writeFlags (aluSub s.a b false).f n s).finish = .next t ∧ Compares s t b n := by
  refine ⟨_, rfl, ⟨_, aluSub_differs s.a b false⟩, ?z, decide_eq_true_iff, decide_eq_true_iff, rfl⟩
  change (s.a - b - 0 == 0) = true ↔ s.a = b
  rw [beq_iff_eq, sub_zero, sub_eq_zero]

/-! ## The obligations -/

/-- Settles O46: each form is `writeAcc` of `aluAdd`, and the read at HL leaves the carry alone. -/
theorem addAndAdc : Obligations.AddAndAdc := by
  intro s
  refine ⟨fun r => ⟨encodes_of rfl rfl nofun, writeAcc_adds s (s.reg r) false 1⟩,
    ⟨encodes_of rfl rfl nofun, readsThen_of_bind _ rfl fun b u _ h => ?add⟩,
    fun b => ⟨encodes_of rfl rfl nofun, writeAcc_adds s b false 2⟩,
    fun r => ⟨encodes_of rfl rfl nofun, writeAcc_adds s (s.reg r) s.f.c 1⟩,
    ⟨encodes_of rfl rfl nofun, readsThen_of_bind _ rfl fun b u hu h => ?adc⟩,
    fun b => ⟨encodes_of rfl rfl nofun, writeAcc_adds s b s.f.c 2⟩⟩
  case add =>
    rw [h]
    exact writeAcc_adds u b false 2
  case adc =>
    rw [h, ← hu.f]
    exact writeAcc_adds u b u.f.c 2

/-- Settles O47: SUB and SBC are `writeAcc` of `aluSub`, CP is `writeFlags` of its flags. -/
theorem subSbcAndCompare : Obligations.SubSbcAndCompare := by
  intro s
  refine ⟨fun r => ⟨encodes_of rfl rfl nofun, writeAcc_subs s (s.reg r) false 1⟩,
    ⟨encodes_of rfl rfl nofun, readsThen_of_bind _ rfl fun b u _ h => ?sub⟩,
    fun b => ⟨encodes_of rfl rfl nofun, writeAcc_subs s b false 2⟩,
    fun r => ⟨encodes_of rfl rfl nofun, writeAcc_subs s (s.reg r) s.f.c 1⟩,
    ⟨encodes_of rfl rfl nofun, readsThen_of_bind _ rfl fun b u hu h => ?sbc⟩,
    fun b => ⟨encodes_of rfl rfl nofun, writeAcc_subs s b s.f.c 2⟩,
    fun r => ⟨encodes_of rfl rfl nofun, writeFlags_compares s (s.reg r) 1⟩,
    ⟨encodes_of rfl rfl nofun, readsThen_of_bind _ rfl fun b u _ h => ?cp⟩,
    fun b => ⟨encodes_of rfl rfl nofun, writeFlags_compares s b 2⟩⟩
  case sub =>
    rw [h]
    exact writeAcc_subs u b false 2
  case sbc =>
    rw [h, ← hu.f]
    exact writeAcc_subs u b u.f.c 2
  case cp =>
    rw [h]
    exact writeFlags_compares u b 2

/-- Settles O48: each form is `writeAcc` of its bitwise function, and the read at HL leaves A alone. -/
theorem logicOperations : Obligations.LogicOperations := by
  intro s after
  refine ⟨fun r => ⟨encodes_of rfl rfl nofun, rfl⟩,
    ⟨encodes_of rfl rfl nofun, readsThen_of_bind _ rfl fun b u hu h => ?and⟩,
    fun b => ⟨encodes_of rfl rfl nofun, rfl⟩, fun r => ⟨encodes_of rfl rfl nofun, rfl⟩,
    ⟨encodes_of rfl rfl nofun, readsThen_of_bind _ rfl fun b u hu h => ?xor⟩,
    fun b => ⟨encodes_of rfl rfl nofun, rfl⟩, fun r => ⟨encodes_of rfl rfl nofun, rfl⟩,
    ⟨encodes_of rfl rfl nofun, readsThen_of_bind _ rfl fun b u hu h => ?or⟩,
    fun b => ⟨encodes_of rfl rfl nofun, rfl⟩⟩
  case and | xor | or =>
    rw [h, ← hu.a]
    rfl

end Sys2Proof.Machine
end

section
/-! PROOF. INC and DEC of a byte, DAA, CPL, SCF and CCF: `IncrementAndDecrement` and `AccumulatorAdjustments`
(42_alu8.md R224 to R231). -/

namespace Sys2Proof.Machine

/-! ## A register or the byte at HL, with its flags -/

theorem writeReg_finish (r : Reg8) (x : AluResult) (n : Nat) (s : State) :
    (writeReg r x n s).finish = .next { s.setReg r x.r with f := x.f, cyc := s.cyc + BitVec.ofNat 64 n } := by
  cases r <;> rfl

/-- The read at HL, then the write there, which a raised access ends (R420); `K` is what the rule says of the byte. -/
theorem modifyHl_readsThen {K : Byte → Byte → Flags → Prop} (g : Byte → AluResult) (n : Nat) (s : State)
    (hK : ∀ v, K v (g v).r (g v).f) :
    ReadsThen s s.hl (modifyHl g n s).finish fun v t => ∃ w f, K v w f ∧
      WritesThen t s.hl w (modifyHl g n s).finish fun u =>
        (modifyHl g n s).finish = .next { u with f := f, cyc := u.cyc + BitVec.ofNat 64 n } :=
  readsThen_of_bind _ rfl fun v _ ht h => ⟨_, _, hK v, ht.hl ▸ writesThen_of_bind _ h fun _ _ hu => hu⟩

/-- Settles O49: the register forms are `writeReg`, the (HL) forms `modifyHl`, of `incResult` and `decResult`. -/
theorem incrementAndDecrement : Obligations.IncrementAndDecrement := by
  intro s inc dec
  have hinc (v : Byte) : inc v (incResult v s.f).r (incResult v s.f).f :=
    ⟨BitVec.toNat_add v 1, beq_zero_iff_toNat _, rfl, decide_eq_true_iff, rfl⟩
  have hdec (v : Byte) : dec v (decResult v s.f).r (decResult v s.f).f :=
    ⟨(BitVec.toNat_sub v 1).trans (by rw [Nat.add_comm]; rfl), beq_zero_iff_toNat _, rfl, decide_eq_true_iff, rfl⟩
  exact ⟨fun r => ⟨encodes_of rfl rfl nofun, _, _, hinc _, writeReg_finish r _ 1 s⟩,
    ⟨encodes_of rfl rfl nofun, modifyHl_readsThen (fun v => incResult v s.f) 3 s hinc⟩,
    fun r => ⟨encodes_of rfl rfl nofun, _, _, hdec _, writeReg_finish r _ 1 s⟩,
    ⟨encodes_of rfl rfl nofun, modifyHl_readsThen (fun v => decResult v s.f) 3 s hdec⟩⟩

/-! ## DAA -/

/-- The adjustment of the low digit (R228). -/
def daaSix (a : Byte) (f : Flags) : Nat :=
  if f.h = true ∨ (f.n = false ∧ a.toNat % 16 > 0x09) then 0x06 else 0

/-- The adjustment of the high digit (R228). -/
def daaSixty (a : Byte) (f : Flags) : Nat :=
  if f.c = true ∨ (f.n = false ∧ a.toNat > 0x99) then 0x60 else 0

/-- What DAA tests, as its rule words it: after a subtraction (`n`) only the flag `c`, else `p` too. -/
theorem adjusts_iff (n c : Bool) (p : Prop) [Decidable p] :
    (if n then c else c || decide p) = true ↔ c = true ∨ (n = false ∧ p) := by
  cases n <;> simp

/-- The two adjustments share no bit, so their union is their sum. -/
theorem toNat_union_adjustments (low high : Bool) :
    ((if low then 0x06 else 0x00 : Byte) ||| (if high then 0x60 else 0x00)).toNat =
      (if low then 0x06 else 0) + (if high then 0x60 else 0) := by
  cases low <;> cases high <;> rfl

theorem daaResult_toNat (a : Byte) (f : Flags) :
    (daaResult a f).r.toNat = (if f.n = true then a.toNat + 256 - (daaSix a f + daaSixty a f)
      else a.toNat + (daaSix a f + daaSixty a f)) % 256 := by
  rw [daaSix, daaSixty, ← if_congr (adjusts_iff f.n f.h _) rfl rfl, ← if_congr (adjusts_iff f.n f.c _) rfl rfl,
    ← toNat_union_adjustments]
  simp only [daaResult]
  split
  · rw [BitVec.toNat_sub]
    omega
  · exact BitVec.toNat_add _ _

theorem daaResult_carry_iff (a : Byte) (f : Flags) : (daaResult a f).f.c = true ↔ daaSixty a f = 0x60 := by
  rw [daaSixty, ite_eq_left_iff, ← adjusts_iff]
  simp [daaResult]

/-- Settles O50: DAA, CPL, SCF and CCF are `writeAcc` or `writeFlags` of their rule's result in every state. -/
theorem accumulatorAdjustments : Obligations.AccumulatorAdjustments := by
  intro s
  refine ⟨⟨encodes_of rfl rfl nofun, _, rfl, daaResult_toNat s.a s.f, beq_zero_iff_toNat _, rfl, rfl,
    daaResult_carry_iff s.a s.f, rfl⟩, ⟨encodes_of rfl rfl nofun, ?cpl⟩, ⟨encodes_of rfl rfl nofun, rfl⟩,
    encodes_of rfl rfl nofun, rfl⟩
  case cpl =>
    have h : s.a ^^^ 0xFF = BitVec.ofNat 8 (255 - s.a.toNat) := by
      rw [show s.a ^^^ 0xFF = ~~~s.a from BitVec.xor_allOnes]
      exact BitVec.eq_of_toNat_eq (by rw [BitVec.toNat_not, BitVec.toNat_ofNat]; omega)
    rw [← h]
    rfl

end Sys2Proof.Machine
end

section
/-! PROOF. ADD, ADC, SUB or SBC followed by DAA: `DecimalArithmetic` (42_alu8.md R191, R192, R228). -/

namespace Sys2Proof.Machine

theorem bcd_toNat {n : Nat} (h : n < 100) : (bcd n).toNat = 16 * (n / 10) + n % 10 := by
  rw [bcd, BitVec.toNat_ofNat]
  omega

theorem bcd_toNat_mod {n : Nat} (h : n < 100) : (bcd n).toNat % 16 = n % 10 := by
  rw [bcd_toNat h]
  omega

theorem bitNat_le_one (v : Bool) : bitNat v ≤ 1 := by cases v <;> decide

theorem eq_true_iff_bitNat (v : Bool) : v = true ↔ bitNat v = 1 := by cases v <;> decide

/-- A sum of decimal numbers has its low digit adjusted when the digits sum to 10 or more, its high digit when the
numbers sum to 100 or more; that makes the hexadecimal digits decimal. -/
theorem daaResult_aluAdd_bcd {m n : Nat} (hm : m < 100) (hn : n < 100) (cin : Bool) :
    let x := aluAdd (bcd m) (bcd n) cin
    (daaResult x.r x.f).r = bcd ((m + n + bitNat cin) % 100) ∧
      ((daaResult x.r x.f).f.c = true ↔ 100 ≤ m + n + bitNat cin) := by
  intro x
  obtain ⟨hsum, hnibble⟩ : x.r.toNat + 256 * bitNat x.f.c = _ ∧ x.r.toNat % 16 + 16 * bitNat x.f.h = _ :=
    aluAdd_sums (bcd m) (bcd n) cin
  have hadd : x.f.n = false := rfl
  have hcin := bitNat_le_one cin
  have hc := bitNat_le_one x.f.c
  have hh := bitNat_le_one x.f.h
  rw [bcd_toNat hm, bcd_toNat hn] at hsum
  rw [bcd_toNat_mod hm, bcd_toNat_mod hn] at hnibble
  have hsix : daaSix x.r x.f = if 10 ≤ m % 10 + n % 10 + bitNat cin then 0x06 else 0 := by
    refine if_congr ?_ rfl rfl
    simp only [eq_true_iff_bitNat (Flags.h _), hadd, true_and]
    omega
  have hsixty : daaSixty x.r x.f = if 100 ≤ m + n + bitNat cin then 0x60 else 0 := by
    refine if_congr ?_ rfl rfl
    simp only [eq_true_iff_bitNat (Flags.c _), hadd, true_and]
    omega
  rw [daaResult_carry_iff, ← BitVec.toNat_inj, daaResult_toNat, bcd_toNat (by omega), hadd, hsix, hsixty]
  simp only [Bool.false_eq_true, if_false]
  refine ⟨?digits, ?carry⟩
  case digits =>
    clear hnibble hh
    split <;> split <;> omega
  case carry => split <;> omega

/-- A difference of decimal numbers has each digit adjusted that borrowed from the next. -/
theorem daaResult_aluSub_bcd {m n : Nat} (hm : m < 100) (hn : n < 100) (cin : Bool) :
    let x := aluSub (bcd m) (bcd n) cin
    (daaResult x.r x.f).r = bcd ((m + 200 - (n + bitNat cin)) % 100) ∧
      ((daaResult x.r x.f).f.c = true ↔ m < n + bitNat cin) := by
  intro x
  obtain ⟨hborrow, hhalf, -, hsub⟩ : Differs (bcd m) (bcd n) cin x.r x.f := aluSub_differs (bcd m) (bcd n) cin
  have hcin := bitNat_le_one cin
  have hc := bitNat_le_one x.f.c
  have hh := bitNat_le_one x.f.h
  rw [bcd_toNat hm, bcd_toNat hn] at hborrow
  rw [bcd_toNat_mod hm, bcd_toNat_mod hn] at hhalf
  have hsix : daaSix x.r x.f = if m % 10 < n % 10 + bitNat cin then 0x06 else 0 := by
    refine if_congr ?_ rfl rfl
    simp only [eq_true_iff_bitNat (Flags.h _), hsub, Bool.true_eq_false, false_and, or_false]
    omega
  have hsixty : daaSixty x.r x.f = if m < n + bitNat cin then 0x60 else 0 := by
    refine if_congr ?_ rfl rfl
    simp only [eq_true_iff_bitNat (Flags.c _), hsub, Bool.true_eq_false, false_and, or_false]
    omega
  rw [daaResult_carry_iff, ← BitVec.toNat_inj, daaResult_toNat, bcd_toNat (by omega), hsub, hsix, hsixty]
  simp only [if_true]
  refine ⟨?digits, ?carry⟩
  case digits =>
    clear hhalf hh
    split <;> split <;> omega
  case carry => split <;> omega

/-! ## The operand forms -/

/-- `i`, then DAA, leaves `x` in decimal digits, with C exactly when `carry`. -/
def State.GivesDecimal (s : State) (i : Instr) (x : Nat) (carry : Prop) : Prop :=
  ∃ t u, exec i s = .next t ∧ exec .daa t = .next u ∧ u.a = bcd x ∧ (u.f.c = true ↔ carry)

section DecimalForms
variable {s u : State} {m n : Nat}

theorem State.GivesDecimal.of_add {i : Instr} {cin : Bool} {c : Nat} (hm : m < 100) (hn : n < 100) (ha : u.a = bcd m)
    (he : exec i s = (writeAcc (aluAdd u.a (bcd n) cin) c u).finish) :
    s.GivesDecimal i ((m + n + bitNat cin) % 100) (100 ≤ m + n + bitNat cin) :=
  ⟨_, _, he, rfl, ha ▸ daaResult_aluAdd_bcd hm hn cin⟩

theorem State.GivesDecimal.of_sub {i : Instr} {cin : Bool} {c : Nat} (hm : m < 100) (hn : n < 100) (ha : u.a = bcd m)
    (he : exec i s = (writeAcc (aluSub u.a (bcd n) cin) c u).finish) :
    s.GivesDecimal i ((m + 200 - (n + bitNat cin)) % 100) (m < n + bitNat cin) :=
  ⟨_, _, he, rfl, ha ▸ daaResult_aluSub_bcd hm hn cin⟩

/-- The four instructions of one operand form do two-digit decimal arithmetic on `m` and `n`. -/
def State.DecimalForm (s : State) (m n : Nat) (add adc sub sbc : Instr) : Prop :=
  s.GivesDecimal add ((m + n) % 100) (100 ≤ m + n) ∧
  s.GivesDecimal adc ((m + n + bitNat s.f.c) % 100) (100 ≤ m + n + bitNat s.f.c) ∧
  s.GivesDecimal sub ((m + 100 - n) % 100) (m < n) ∧
  s.GivesDecimal sbc ((m + 200 - (n + bitNat s.f.c)) % 100) (m < n + bitNat s.f.c)

/-- `u` is the state once the operand `b` is there. -/
theorem State.DecimalForm.of_exec {add adc sub sbc : Instr} {b : Byte} {c : Nat} (hm : m < 100) (hn : n < 100)
    (ha : u.a = bcd m) (hf : u.f = s.f) (hb : b = bcd n)
    (hadd : exec add s = (writeAcc (aluAdd u.a b false) c u).finish)
    (hadc : exec adc s = (writeAcc (aluAdd u.a b u.f.c) c u).finish)
    (hsub : exec sub s = (writeAcc (aluSub u.a b false) c u).finish)
    (hsbc : exec sbc s = (writeAcc (aluSub u.a b u.f.c) c u).finish) :
    s.DecimalForm m n add adc sub sbc := by
  subst hb
  rw [hf] at hadc hsbc
  refine ⟨?add, .of_add hm hn ha hadc, ?sub, .of_sub hm hn ha hsbc⟩
  case add => simpa only [bitNat, Bool.false_eq_true, if_false, Nat.add_zero] using GivesDecimal.of_add hm hn ha hadd
  case sub =>
    have h : (m + 100 - n) % 100 = (m + 200 - n) % 100 := by omega
    simpa only [bitNat, Bool.false_eq_true, if_false, Nat.add_zero, h] using GivesDecimal.of_sub hm hn ha hsub

end DecimalForms

/-- Settles O51: every form writes back `aluAdd` or `aluSub` of A and the operand, and DAA makes the result decimal. -/
theorem decimalArithmetic : Obligations.DecimalArithmetic := by
  intro s m n hm hn ha k gives decimal
  refine ⟨?immediate, fun r hr => ?register, fun t ht => ?memory⟩
  case immediate => exact State.DecimalForm.of_exec hm hn ha rfl rfl rfl rfl rfl rfl
  case register => exact State.DecimalForm.of_exec hm hn ha rfl hr rfl rfl rfl rfl
  case memory =>
    have hbus := BusOnly.of_read ht
    have hread (k : Byte → State → Res Unit) : (withHl k s).finish = (k (bcd n) t).finish := by
      rw [withHl, ht, Res.bind_ok]
    exact State.DecimalForm.of_exec hm hn (hbus.a.trans ha) hbus.f rfl (hread _) (hread _) (hread _) (hread _)

end Sys2Proof.Machine
end

section
/-! PROOF. Rotates, shifts and SWAP: `AccumulatorRotates`, `SecondaryRotatesOnRegisters` and `SecondaryRotatesOnMemory`
(44_rotate_shift_bit.md R270 to R295). -/

namespace Sys2Proof.Machine

/-! ## The eight functions on numbers (R275) -/

theorem bit0_toNat (x : Bool) : (bit0 x).toNat = bitNat x := by cases x <;> rfl

/-- A multiple of 2^i and a number below 2^i share no bit, so their union is their sum. -/
theorem toNat_or_of_disjoint {v w : Byte} (i a : Nat) (hv : v.toNat = 2 ^ i * a) (hw : w.toNat < 2 ^ i) :
    (v ||| w).toNat = v.toNat + w.toNat := by
  rw [BitVec.toNat_or, hv, Nat.two_pow_add_eq_or_of_lt hw]

theorem toNat_shiftLeft_one (v : Byte) : (v <<< 1).toNat = 2 * v.toNat % 256 := by
  rw [BitVec.toNat_shiftLeft, Nat.shiftLeft_eq, Nat.mul_comm]

theorem toNat_shiftRight_one (v : Byte) : (v >>> 1).toNat = v.toNat / 2 := by
  rw [BitVec.toNat_ushiftRight, Nat.shiftRight_eq_div_pow]

/-- One place to the left, with `x` as the new bit 0. -/
theorem toNat_shiftLeft_or_bit (v : Byte) (x : Bool) : (v <<< 1 ||| bit0 x).toNat = 2 * v.toNat % 256 + bitNat x := by
  have hx := bitNat_le_one x
  rw [toNat_or_of_disjoint 1 (v.toNat % 128) (by rw [toNat_shiftLeft_one]; omega) (by rw [bit0_toNat]; omega),
    toNat_shiftLeft_one, bit0_toNat]

/-- One place to the right, with `x` as the new bit 7. -/
theorem toNat_bit_or_shiftRight (v : Byte) (x : Bool) :
    (bit0 x <<< 7 ||| v >>> 1).toNat = v.toNat / 2 + 128 * bitNat x := by
  have hv := v.isLt
  have htop : (bit0 x <<< 7).toNat = 128 * bitNat x := by cases x <;> rfl
  rw [toNat_or_of_disjoint 7 (bitNat x) htop (by rw [toNat_shiftRight_one]; omega), htop, toNat_shiftRight_one,
    Nat.add_comm]

theorem toNat_swapNibbles (v : Byte) : (v <<< 4 ||| v >>> 4).toNat = 16 * (v.toNat % 16) + v.toNat / 16 := by
  have hv := v.isLt
  have hhigh : (v <<< 4).toNat = 16 * (v.toNat % 16) := by
    rw [BitVec.toNat_shiftLeft, Nat.shiftLeft_eq]
    omega
  have hlow : (v >>> 4).toNat = v.toNat / 16 := by rw [BitVec.toNat_ushiftRight, Nat.shiftRight_eq_div_pow]
  rw [toNat_or_of_disjoint 4 _ hhigh (by rw [hlow]; omega), hhigh, hlow]

theorem bitNat_bit7 (v : Byte) : bitNat (v.getLsbD 7) = v.toNat / 128 := by
  have hv := v.isLt
  rw [bitNat_getLsbD]
  omega

theorem bitNat_bit0 (v : Byte) : bitNat (v.getLsbD 0) = v.toNat % 2 := by
  rw [bitNat_getLsbD, Nat.pow_zero, Nat.div_one]

theorem Rot.value_toNat (k : Rot) (v : Byte) (cin : Bool) :
    (k.value v cin).toNat = (rotNat k v.toNat (bitNat cin)).1 := by
  cases k with
  | rlc => exact (toNat_shiftLeft_or_bit v _).trans (congrArg (_ + ·) (bitNat_bit7 v))
  | rrc => exact (toNat_bit_or_shiftRight v _).trans (congrArg (_ + 128 * ·) (bitNat_bit0 v))
  | rl => exact toNat_shiftLeft_or_bit v cin
  | rr => exact toNat_bit_or_shiftRight v cin
  | sla => exact toNat_shiftLeft_one v
  | sra => exact (toNat_bit_or_shiftRight v _).trans (congrArg (_ + 128 * ·) (bitNat_bit7 v))
  | swap => exact toNat_swapNibbles v
  | srl => exact toNat_shiftRight_one v

theorem Rot.carry_toNat (k : Rot) (v : Byte) (cin : Nat) : bitNat (k.carry v) = (rotNat k v.toNat cin).2 := by
  cases k with
  | rlc | rl | sla => exact bitNat_bit7 v
  | rrc | rr | sra | srl => exact bitNat_bit0 v
  | swap => rfl

/-- Both uses of the function table, which differ in Z alone (R270, R275). -/
theorem Rot.rotates (k : Rot) (v : Byte) (cin z : Bool) :
    Rotates k v cin (k.value v cin) ⟨z, false, false, k.carry v⟩ :=
  ⟨k.value_toNat v cin, k.carry_toNat v _, rfl, rfl⟩

/-! ## The three operand forms -/

theorem writeAcc_rotates (k : Rot) (s : State) : ∃ w f, Rotates k s.a s.f.c w f ∧ f.z = false ∧
    (writeAcc (k.accResult s.a s.f.c) 1 s).finish = .next { s with a := w, f := f, cyc := s.cyc + 1 } ∧
    (writeReg .a (k.result s.a s.f.c) 2 s).finish =
      .next { s with a := w, f := { f with z := decide (w.toNat = 0) }, cyc := s.cyc + 2 } := by
  have hz (w : Byte) : (w == 0) = decide (w.toNat = 0) :=
    Bool.eq_iff_iff.2 ((beq_zero_iff_toNat w).trans decide_eq_true_iff.symm)
  refine ⟨_, _, k.rotates s.a s.f.c false, rfl, rfl, ?_⟩
  rw [← hz]
  rfl

theorem writeReg_rotates (k : Rot) (r : Reg8) (s : State) :
    ∃ w f, Rotates k (s.reg r) s.f.c w f ∧ (f.z = true ↔ w.toNat = 0) ∧
      (writeReg r (k.result (s.reg r) s.f.c) 2 s).finish = .next { s.setReg r w with f := f, cyc := s.cyc + 2 } :=
  ⟨_, _, k.rotates _ _ _, beq_zero_iff_toNat _, writeReg_finish r (k.result (s.reg r) s.f.c) 2 s⟩

theorem modifyHl_rotates (k : Rot) (s : State) :
    let o := (modifyHl (fun v => k.result v s.f.c) 4 s).finish
    ReadsThen s s.hl o fun v t => ∃ w f, Rotates k v s.f.c w f ∧ (f.z = true ↔ w.toNat = 0) ∧
      WritesThen t s.hl w o fun u => o = .next { u with f := f, cyc := u.cyc + 4 } := by
  have h := modifyHl_readsThen (K := fun v w f => Rotates k v s.f.c w f ∧ (f.z = true ↔ w.toNat = 0))
    (fun v => k.result v s.f.c) 4 s fun v => ⟨k.rotates v s.f.c _, beq_zero_iff_toNat _⟩
  simp only [and_assoc] at h
  exact h

/-! ## The obligations -/

/-- Settles O53: both rotates of A write back the same value and carry, and Z apart the same flags. -/
theorem accumulatorRotates : Obligations.AccumulatorRotates := by
  intro s
  simp only [List.forall_mem_cons]
  exact ⟨⟨encodes_of rfl rfl nofun, encodes_of rfl rfl nofun, writeAcc_rotates .rlc s⟩,
    ⟨encodes_of rfl rfl nofun, encodes_of rfl rfl nofun, writeAcc_rotates .rrc s⟩,
    ⟨encodes_of rfl rfl nofun, encodes_of rfl rfl nofun, writeAcc_rotates .rl s⟩,
    ⟨encodes_of rfl rfl nofun, encodes_of rfl rfl nofun, writeAcc_rotates .rr s⟩,
    List.forall_mem_nil _⟩

/-- Settles O54: each row is `writeReg` of the result of its function. -/
theorem secondaryRotatesOnRegisters : Obligations.SecondaryRotatesOnRegisters := by
  intro s r
  simp only [List.forall_mem_cons]
  exact ⟨⟨encodes_of rfl rfl nofun, writeReg_rotates .rlc r s⟩, ⟨encodes_of rfl rfl nofun, writeReg_rotates .rrc r s⟩,
    ⟨encodes_of rfl rfl nofun, writeReg_rotates .rl r s⟩, ⟨encodes_of rfl rfl nofun, writeReg_rotates .rr r s⟩,
    ⟨encodes_of rfl rfl nofun, writeReg_rotates .sla r s⟩, ⟨encodes_of rfl rfl nofun, writeReg_rotates .sra r s⟩,
    ⟨encodes_of rfl rfl nofun, writeReg_rotates .swap r s⟩, ⟨encodes_of rfl rfl nofun, writeReg_rotates .srl r s⟩,
    List.forall_mem_nil _⟩

/-- Settles O55: each row is `modifyHl` of the result of its function. -/
theorem secondaryRotatesOnMemory : Obligations.SecondaryRotatesOnMemory := by
  intro s
  simp only [List.forall_mem_cons]
  exact ⟨⟨encodes_of rfl rfl nofun, modifyHl_rotates .rlc s⟩, ⟨encodes_of rfl rfl nofun, modifyHl_rotates .rrc s⟩,
    ⟨encodes_of rfl rfl nofun, modifyHl_rotates .rl s⟩, ⟨encodes_of rfl rfl nofun, modifyHl_rotates .rr s⟩,
    ⟨encodes_of rfl rfl nofun, modifyHl_rotates .sla s⟩, ⟨encodes_of rfl rfl nofun, modifyHl_rotates .sra s⟩,
    ⟨encodes_of rfl rfl nofun, modifyHl_rotates .swap s⟩, ⟨encodes_of rfl rfl nofun, modifyHl_rotates .srl s⟩,
    List.forall_mem_nil _⟩

end Sys2Proof.Machine
end

section
/-! PROOF. BIT, RES and SET: `BitResetAndSet` (44_rotate_shift_bit.md R296 to R301). -/

namespace Sys2Proof.Machine

/-! ## One bit of a byte -/

theorem getLsbD_mask {b : Nat} (hb : b < 8) (j : Nat) : (1#8 <<< b).getLsbD j = decide (b = j) := by
  have h : (BitVec.twoPow 8 b).getLsbD j = (decide (b < 8) && decide (b = j)) := BitVec.getLsbD_twoPow b j
  rwa [decide_eq_true hb, Bool.true_and] at h

theorem getLsbD_resetBit {b j : Nat} (hb : b < 8) (hj : j < 8) (v : Byte) :
    (resetBit v b).getLsbD j = if j = b then false else v.getLsbD j := by
  rw [resetBit, BitVec.getLsbD_and, BitVec.getLsbD_not, getLsbD_mask hb, decide_eq_true hj]
  by_cases h : j = b
  · simp [h]
  · simp [h, Ne.symm h]

theorem getLsbD_setBit {b : Nat} (hb : b < 8) (v : Byte) (j : Nat) :
    (setBit v b).getLsbD j = if j = b then true else v.getLsbD j := by
  rw [setBit, BitVec.getLsbD_or, getLsbD_mask hb]
  by_cases h : j = b
  · simp [h]
  · simp [h, Ne.symm h]

/-- The read at HL, then the write there, no flag changed (R299, R301); `P` is what the rule says of the byte. -/
theorem updateHl_readsThen {P : Byte → Byte → Prop} {o : Out} (g : Byte → Byte) (n : Nat) (s : State)
    (hP : ∀ v, P v (g v)) (ho : o = (updateHl g n s).finish) :
    ReadsThen s s.hl o fun v t => ∃ w, P v w ∧
      WritesThen t s.hl w o fun u => o = .next { u with cyc := u.cyc + BitVec.ofNat 64 n } :=
  readsThen_of_bind _ ho fun v _ ht h => ⟨_, hP v, ht.hl ▸ writesThen_of_bind _ h fun _ _ hu => hu⟩

/-- Settles O56: below 8 each index goes on, BIT to `writeFlags`, RES and SET to a write of the changed byte. -/
theorem bitResetAndSet : Obligations.BitResetAndSet := by
  intro s b hb one
  have hindex (k : State → Res Unit) : (withIndex b k s).finish = (k s).finish :=
    congrArg Res.finish (withIndex_of_lt hb k s)
  have hwf : decide (b < 8) = true := decide_eq_true hb
  have hreset (v : Byte) : one v (resetBit v b) false := fun j hj => getLsbD_resetBit hb hj v
  have hset (v : Byte) : one v (setBit v b) true := fun j _ => getLsbD_setBit hb v j
  refine ⟨fun r => ⟨encodes_of rfl hwf nofun, hindex _⟩,
    ⟨encodes_of rfl hwf nofun, readsThen_of_bind _ (hindex _) fun v t ht h => ?bitHl⟩,
    fun r => ⟨encodes_of rfl hwf nofun, _, hreset _, (hindex _).trans (finish_done 2 (s.setReg_cyc r _))⟩,
    ⟨encodes_of rfl hwf nofun, updateHl_readsThen _ 4 s hreset (hindex _)⟩,
    fun r => ⟨encodes_of rfl hwf nofun, _, hset _, (hindex _).trans (finish_done 2 (s.setReg_cyc r _))⟩,
    encodes_of rfl hwf nofun, updateHl_readsThen _ 4 s hset (hindex _)⟩
  case bitHl =>
    rw [← ht.f]
    exact h

end Sys2Proof.Machine
end

section
/-! PROOF. Jumps, calls, returns and restarts: `Jumps` and `CallsAndReturns` (45_control_transfer.md R320 to R331). -/

namespace Sys2Proof.Machine

/-! ## The shared operations -/

theorem finish_ifCond_taken {cc : Cond} {s : State} (h : s.cond cc = true) (x : State → Res Unit) (n : Nat) :
    (ifCond cc x n s).finish = (x s).finish :=
  congrArg Res.finish (ifCond_taken h x n)

theorem finish_ifCond_not_taken {cc : Cond} {s : State} (h : ¬ s.cond cc = true) (x : State → Res Unit) (n : Nat) :
    (ifCond cc x n s).finish = .next { s with cyc := s.cyc + BitVec.ofNat 64 n } :=
  congrArg Res.finish (if_neg h)

/-- The displacement is signed and the sum wraps (R324). -/
theorem State.relative_toNat (s : State) (e : Byte) :
    ((s.relative e).toNat : Int) = (s.pc.toNat + e.toInt) % 65536 :=
  spPlusE_toNat s.pc e

/-- The push ends the call when it faults, and PC is written after it (R326, R331). -/
theorem call_pushesThen {o : Out} {s : State} (a : Word) (n : Nat) (ho : o = (call a n s).finish) :
    PushesThen s s.pc o fun u => o = .next { u with pc := a, cyc := u.cyc + BitVec.ofNat 64 n } :=
  pushesThen_of (fun x => (x.bind fun _ t => jump a n t).finish) ho (fun _ => rfl) fun _ _ h => h

/-- The pop ends the return when it faults, and PC is written after it (R328). -/
theorem returnTo_popsThen {o : Out} {s : State} (n : Nat) (ho : o = (returnTo n s).finish) :
    PopsThen s o fun hi lo u => o = .next { u with pc := hi ++ lo, cyc := u.cyc + BitVec.ofNat 64 n } :=
  popsThen_of (fun x => (x.bind fun v t => jump v n t).finish) ho (fun _ => rfl) fun _ _ _ _ h => h

/-- IME is written with PC, after the pop (R329). -/
theorem execReti_popsThen (s : State) :
    PopsThen s (execReti s) fun hi lo u =>
      execReti s = .next { u with pc := hi ++ lo, ime := true, cyc := u.cyc + 4 } :=
  popsThen_of
    (fun x => ((x.bind fun v t => .ok () { t with pc := v, ime := true }).bind fun _ t => done 4 t).finish)
    rfl (fun _ => rfl) fun _ _ _ _ h => h

/-! ## The obligations -/

/-- Settles O57: `jump` at the target of each rule, which a conditional form reaches when `State.cond` holds. -/
theorem jumps : Obligations.Jumps := by
  intro s holds
  have hcond (cc : Cond) : holds cc ↔ s.cond cc = true := by
    cases cc
    case nz => exact (Bool.not_eq_true' s.f.z).symm.to_iff
    case nc => exact (Bool.not_eq_true' s.f.c).symm.to_iff
    case z | c => exact Iff.rfl
  exact ⟨fun lo hi => ⟨encodes_of (encodeD16_wordOf _ hi lo) rfl nofun, rfl⟩,
    fun cc lo hi => ⟨encodes_of (encodeD16_wordOf _ hi lo) rfl nofun,
      fun h => finish_ifCond_taken ((hcond cc).mp h) _ 3, fun h => finish_ifCond_not_taken (mt (hcond cc).mpr h) _ 3⟩,
    ⟨encodes_of rfl rfl nofun, rfl⟩,
    fun e => ⟨s.relative e, s.relative_toNat e, encodes_of rfl rfl nofun, rfl,
      fun cc => ⟨encodes_of rfl rfl nofun, fun h => finish_ifCond_taken ((hcond cc).mp h) _ 2,
        fun h => finish_ifCond_not_taken (mt (hcond cc).mpr h) _ 2⟩⟩⟩

/-- Settles O58: `call` and `returnTo`, which a conditional form runs when taken and RST below index 8. -/
theorem callsAndReturns : Obligations.CallsAndReturns := by
  intro s
  exact ⟨fun lo hi => ⟨encodes_of (encodeD16_wordOf _ hi lo) rfl nofun, call_pushesThen (hi ++ lo) 6 rfl⟩,
    fun cc lo hi => ⟨encodes_of (encodeD16_wordOf _ hi lo) rfl nofun,
      fun h => call_pushesThen (hi ++ lo) 6 (finish_ifCond_taken h _ 3),
      fun h => finish_ifCond_not_taken (Bool.eq_false_iff.mp h) _ 3⟩,
    fun t ht => ⟨encodes_of rfl (decide_eq_true ht) nofun,
      call_pushesThen (restartTarget t) 4 (congrArg Res.finish (withIndex_of_lt ht _ s))⟩,
    ⟨encodes_of rfl rfl nofun, returnTo_popsThen 4 rfl⟩,
    ⟨encodes_of rfl rfl nofun, execReti_popsThen s⟩,
    fun cc => ⟨encodes_of rfl rfl nofun,
      fun h => returnTo_popsThen 5 (finish_ifCond_taken h _ 2),
      fun h => finish_ifCond_not_taken (Bool.eq_false_iff.mp h) _ 2⟩⟩

end Sys2Proof.Machine
end

section
/-! PROOF. The halted CPU, NOP to EI, and the undefined first bytes: `HaltedCpu`, `SystemInstructions` and
`IllegalOpcodes` (46_misc_system.md R350 to R357). -/

namespace Sys2Proof.Machine

/-! ## The requests that wake a halted CPU -/

theorem lowestSource_eq_none_iff (m : Byte) : lowestSource m = none ↔ ∀ j < 5, m.getLsbD j = false := by
  unfold lowestSource
  constructor
  · intro h j hj
    split_ifs at h
    interval_cases j <;> exact Bool.eq_false_iff.mpr ‹_›
  · intro h
    simp only [h, Nat.reduceLT, Bool.false_eq_true, if_false]

/-- No source stands above bit 4 (R407). -/
theorem Config.getLsbD_scanMask_of_ge (p : Config) {j : Nat} (hj : 5 ≤ j) :
    (Config.scanMask p).getLsbD j = false := by
  have hlt : (Config.scanMask p).toNat < 2 ^ 5 := by
    unfold Config.scanMask
    split <;> decide
  exact Nat.testBit_lt_two_pow (hlt.trans_le (Nat.pow_le_pow_right two_pos hj))

/-- The wake test of R353 and the priority encoder of R408 see the same requests. -/
theorem State.getTop_true_eq_none_iff (s : State) : s.getTop true = none ↔ s.pending = 0 := by
  change lowestSource s.pending = none ↔ _
  rw [lowestSource_eq_none_iff]
  constructor
  · intro h
    apply BitVec.eq_of_getLsbD_eq
    intro j _
    by_cases hj : j < 5
    · simp [h j hj]
    · simp [State.pending, Config.getLsbD_scanMask_of_ge s.cfg (not_lt.mp hj)]
  · intro h j _
    simp [h]

/-! ## The step of a halted CPU -/

theorem step_of_halted {s : State} (h : s.active) (hh : s.halted = true) :
    step s = if s.pending = 0 then .next (s.tick cyclesIdle) else dispatchStep { s with halted := false } := by
  have hheld := State.cpuHeld_of_active h
  obtain ⟨hi, hr, hf, -, -⟩ := h
  rw [step_of_no_fault hf, State.takeMove_quiet hi hr]
  simp [runMove, cpuStep, hheld, hh]

/-- Settles O26: the step is `step_of_halted`, and what wakes the CPU is what `getTop` scans when IME is set. -/
theorem haltedCpu : Obligations.HaltedCpu := by
  intro s hs hh
  change (s.pending = 0 → _) ∧ (s.pending ≠ 0 → _)
  refine ⟨fun hp => ?_, fun hp => ⟨?_, fun hime => ?_, fun hime => ?_⟩⟩
  · rw [step_of_halted hs hh, if_pos hp]
    rfl
  · have hwoken : State.active { s with halted := false } := hs
    rw [step_of_halted hs hh, if_neg hp, step_of_active hwoken rfl]
  · rw [hime]
    exact Option.ne_none_iff_exists'.mp (mt s.getTop_true_eq_none_iff.mp hp)
  · have htop : s.getTop s.ime = none := by rw [hime]; rfl
    exact ⟨hs, rfl, htop⟩

/-! ## One latch, one cycle -/

/-- Settles O59: each meaning is `done 1` after the write of its latch, which leaves the counter alone. -/
theorem systemInstructions : Obligations.SystemInstructions := by
  intro s
  exact ⟨⟨encodes_of rfl rfl nofun, finish_done 1 rfl⟩,
    ⟨encodes_of rfl rfl nofun, finish_done 1 (s := { s with halted := true }) rfl⟩,
    fun _ => ⟨encodes_of rfl rfl nofun, finish_done 1 (s := { s with stopped := true }) rfl⟩,
    ⟨encodes_of rfl rfl nofun, finish_done 1 (s := { s with ime := false }) rfl⟩,
    ⟨encodes_of rfl rfl nofun, finish_done 1 (s := { s with ime := true }) rfl⟩⟩

/-! ## The undefined first bytes -/

theorem undefinedRows_encodes {op : Byte} {i : Instr} (h : (op, i) ∈ undefinedRows) : Encodes i [op] := by
  obtain ⟨hwf, hne, he⟩ := undefinedRows_spell _ h
  exact encodes_of he hwf hne

/-- Every ILLEGAL row raises its own byte, with no `tick` (R357). -/
theorem exec_undefinedRows {op : Byte} {i : Instr} (h : (op, i) ∈ undefinedRows) (s : State) :
    exec i s = .next (s.latched (.illegalOpcode op)) := by
  have hrows : ∀ row ∈ undefinedRows, exec row.2 s = (illegal row.1 s).finish := by
    intro row hrow
    fin_cases hrow <;> rfl
  exact hrows _ h

/-- Settles O60: the row is what its byte decodes to, so the step runs it, and a fault is the last thing to happen. -/
theorem illegalOpcodes : Obligations.IllegalOpcodes := by
  intro s op i h
  have henc := undefinedRows_encodes h
  refine ⟨henc, exec_undefinedRows h s, fun hs hr => ⟨?_, step_of_fault (Option.some_ne_none _)⟩⟩
  rw [stepRunsDecodedInstruction s [op] i hs (henc.2 []) ⟨hr, trivial⟩]
  exact exec_undefinedRows h _

end Sys2Proof.Machine
end

section
/-! PROOF. The bounded priority queue: `push` and `pop` keep the elements and, under a strict weak order, the heap:
`QueuePush` and `QueuePop` (48_priority_queue_scheduler.md R371, R373, R374, R378, R379, R380). The heap is spoken of
by indexes: a swap of two elements is a swap of the indexes at which `lowerAt` looks. -/

namespace Sys2Proof.Machine.Queue

variable {α : Type} {lower : α → α → Bool} {data data' : List α} {i j k : Nat}

/-! ## The tree (R373) -/

theorem parent_lt (hi : 0 < i) : parent i < i := by
  unfold parent
  omega

theorem parent_left (i : Nat) : parent (left i) = i := by
  unfold parent left
  omega

theorem parent_right (i : Nat) : parent (right i) = i := by
  unfold parent right
  omega

theorem eq_left_or_right (hj : 0 < j) : j = left (parent j) ∨ j = right (parent j) := by
  unfold left right parent
  omega

theorem lt_left (i : Nat) : i < left i := by
  unfold left
  omega

theorem left_lt_right (i : Nat) : left i < right i := Nat.lt_succ_self _

/-! ## Comparing by index -/

theorem lowerAt_eq {x y : α} (hi : data[i]? = some x) (hj : data[j]? = some y) :
    lowerAt lower data i j = lower x y := by
  simp [lowerAt, hi, hj]

theorem lowerAt_eq_getElem (hi : i < data.length) (hj : j < data.length) :
    lowerAt lower data i j = lower data[i] data[j] :=
  lowerAt_eq (List.getElem?_eq_getElem hi) (List.getElem?_eq_getElem hj)

theorem lowerAt_congr {i' j' : Nat} (hi : data[i]? = data'[i']?) (hj : data[j]? = data'[j']?) :
    lowerAt lower data i j = lowerAt lower data' i' j' := by
  simp [lowerAt, hi, hj]

theorem lowerAt_of_le (hj : data.length ≤ j) (i : Nat) : lowerAt lower data i j = false := by
  simp only [lowerAt, List.getElem?_eq_none hj]
  cases data[i]? <;> rfl

theorem lt_of_lowerAt (h : lowerAt lower data i j = true) : i < data.length ∧ j < data.length := by
  unfold lowerAt at h
  split at h
  · next hx hy =>
    obtain ⟨hi, -⟩ := List.getElem?_eq_some_iff.mp hx
    obtain ⟨hj, -⟩ := List.getElem?_eq_some_iff.mp hy
    exact ⟨hi, hj⟩
  · simp at h

theorem lowerAt_irrefl (hw : StrictWeak lower) (data : List α) (i : Nat) : lowerAt lower data i i = false := by
  unfold lowerAt
  split
  · next hx hy => cases hx.symm.trans hy; exact hw.irrefl _
  · rfl

theorem lowerAt_trans (hw : StrictWeak lower) (hij : lowerAt lower data i j = true)
    (hjk : lowerAt lower data j k = true) : lowerAt lower data i k = true := by
  obtain ⟨hi, hj⟩ := lt_of_lowerAt hij
  obtain ⟨-, hk⟩ := lt_of_lowerAt hjk
  rw [lowerAt_eq_getElem hi hj] at hij
  rw [lowerAt_eq_getElem hj hk] at hjk
  rw [lowerAt_eq_getElem hi hk]
  exact hw.trans _ _ _ hij hjk

theorem lowerAt_asymm (hw : StrictWeak lower) (hij : lowerAt lower data i j = true) :
    lowerAt lower data j i = false := by
  by_contra hji
  have hii := lowerAt_trans hw hij (Bool.eq_true_of_not_eq_false hji)
  simp [lowerAt_irrefl hw] at hii

/-- `not lower` is transitive over an index of the queue. -/
theorem lowerAt_incomp (hw : StrictWeak lower) (hj : j < data.length) (hij : lowerAt lower data i j = false)
    (hjk : lowerAt lower data j k = false) : lowerAt lower data i k = false := by
  by_contra hik
  have hik := Bool.eq_true_of_not_eq_false hik
  obtain ⟨hi, hk⟩ := lt_of_lowerAt hik
  rw [lowerAt_eq_getElem hi hj] at hij
  rw [lowerAt_eq_getElem hj hk] at hjk
  rw [lowerAt_eq_getElem hi hk, hw.incomp _ _ _ hij hjk] at hik
  simp at hik

/-! ## The swap -/

theorem swap_eq (hi : i < data.length) (hj : j < data.length) :
    swap data i j = (data.set i data[j]).set j data[i] := by
  simp [swap, hi, hj]

theorem swap_perm (data : List α) (i j : Nat) : (swap data i j).Perm data := by
  unfold swap
  split
  · next hx hy =>
    obtain ⟨hi, rfl⟩ := List.getElem?_eq_some_iff.mp hx
    obtain ⟨hj, rfl⟩ := List.getElem?_eq_some_iff.mp hy
    exact List.set_set_perm hi hj
  · rfl

@[simp] theorem length_swap (data : List α) (i j : Nat) : (swap data i j).length = data.length :=
  (swap_perm data i j).length_eq

theorem getElem?_swap (hi : i < data.length) (hj : j < data.length) (k : Nat) :
    (swap data i j)[k]? = data[Equiv.swap i j k]? := by
  rw [swap_eq hi hj, Equiv.swap_apply_def]
  by_cases hkj : k = j
  · subst hkj
    by_cases hki : k = i
    · simp [hki, hi]
    · simp [hki, hi, hj]
  · by_cases hki : k = i
    · subst hki
      simp [Ne.symm hkj, hi, hj]
    · simp [Ne.symm hkj, Ne.symm hki, hkj, hki]

theorem lowerAt_swap (hi : i < data.length) (hj : j < data.length) (a b : Nat) :
    lowerAt lower (swap data i j) a b = lowerAt lower data (Equiv.swap i j a) (Equiv.swap i j b) :=
  lowerAt_congr (getElem?_swap hi hj a) (getElem?_swap hi hj b)

/-! ## The heap (R374) -/

theorem heapOrdered_iff :
    heapOrdered lower data = true ↔ ∀ j, 0 < j → lowerAt lower data (parent j) j = false := by
  simp only [heapOrdered, List.all_eq_true, List.mem_range, Bool.or_eq_true, beq_iff_eq, Bool.not_eq_true']
  refine ⟨fun h j hj => ?_, fun h j _ => (Nat.eq_zero_or_pos j).imp_right (h j)⟩
  by_cases hlt : j < data.length
  · exact (h j hlt).resolve_left hj.ne'
  · exact lowerAt_of_le (Nat.le_of_not_lt hlt) _

/-- The root is lower than no element: along the path from the root no element is lower than the next (R374). -/
theorem lowerAt_root (hw : StrictWeak lower) (hh : heapOrdered lower data = true) (j : Nat) :
    lowerAt lower data 0 j = false := by
  induction j using Nat.strong_induction_on with
  | _ j ih =>
    by_cases hj : 0 < j
    · by_cases hlt : j < data.length
      · exact lowerAt_incomp hw ((parent_lt hj).trans hlt) (ih _ (parent_lt hj)) (heapOrdered_iff.mp hh j hj)
      · exact lowerAt_of_le (Nat.le_of_not_lt hlt) _
    · rw [Nat.eq_zero_of_not_pos hj]
      exact lowerAt_irrefl hw data 0

theorem root_not_lower {x y : α} {xs : List α} (hw : StrictWeak lower) (hh : heapOrdered lower (x :: xs) = true)
    (hy : y ∈ xs) : lower x y = false := by
  obtain ⟨j, hj⟩ := List.mem_iff_getElem?.mp hy
  have hroot := lowerAt_root hw hh (j + 1)
  rwa [lowerAt_eq (List.getElem?_cons_zero ..) (List.getElem?_cons_succ.trans hj)] at hroot

/-- A heap but for the pairs of a parent and a child that `broken` names by the child, all at `i`: the parent of `i`
still is lower than no child of `i`. The sifts keep this while `i` moves. -/
structure HeapBut (lower : α → α → Bool) (data : List α) (i : Nat) (broken : Nat → Prop) : Prop where
  kept : ∀ j, 0 < j → ¬ broken j → lowerAt lower data (parent j) j = false
  bridge : ∀ j, 0 < i → 0 < j → parent j = i → lowerAt lower data (parent i) j = false

/-! ## Sifting up (R378) -/

/-- After the swap with its parent the sifted element stands at the parent: its sibling was no higher than the old
parent, and the children of its old place were no higher than that. -/
theorem HeapBut.swap_parent (hw : StrictWeak lower) (h : HeapBut lower data i (· = i)) (hi : 0 < i)
    (hlow : lowerAt lower data (parent i) i = true) :
    HeapBut lower (swap data (parent i) i) (parent i) (· = parent i) := by
  obtain ⟨hp, hlt⟩ := lt_of_lowerAt hlow
  have hpi := parent_lt hi
  refine ⟨fun j hj hne => ?_, fun j hppos hj hjp => ?_⟩ <;> rw [lowerAt_swap hp hlt]
  · by_cases hji : j = i
    · subst hji
      simpa using lowerAt_asymm hw hlow
    rw [Equiv.swap_apply_of_ne_of_ne hne hji]
    by_cases hjp : parent j = parent i
    · rw [hjp, Equiv.swap_apply_left]
      by_contra hij
      have hpj := lowerAt_trans hw hlow (Bool.eq_true_of_not_eq_false hij)
      rw [← hjp, h.kept j hj hji] at hpj
      simp at hpj
    by_cases hjc : parent j = i
    · rw [hjc, Equiv.swap_apply_right]
      exact h.bridge j hi hj hjc
    rw [Equiv.swap_apply_of_ne_of_ne hjp hjc]
    exact h.kept j hj hji
  · have hpp := parent_lt hppos
    have hroot : lowerAt lower data (parent (parent i)) (parent i) = false := h.kept _ hppos hpi.ne
    rw [Equiv.swap_apply_of_ne_of_ne hpp.ne (hpp.trans hpi).ne]
    by_cases hji : j = i
    · rw [hji, Equiv.swap_apply_right]
      exact hroot
    · have hjne : j ≠ parent i := fun hj' => absurd (parent_lt hj) (by omega)
      rw [Equiv.swap_apply_of_ne_of_ne hjne hji]
      exact lowerAt_incomp hw hp hroot (hjp ▸ h.kept j hj hji)

/-- Where the sift up stops nothing is broken any more. -/
theorem HeapBut.heapOrdered_of_stop (h : HeapBut lower data i (· = i))
    (hstop : 0 < i → lowerAt lower data (parent i) i = false) : heapOrdered lower data = true := by
  refine heapOrdered_iff.mpr fun j hj => ?_
  by_cases hji : j = i
  · subst hji
    exact hstop hj
  · exact h.kept j hj hji

theorem siftUp_perm (lower : α → α → Bool) (fuel i : Nat) (data : List α) :
    (siftUp lower fuel i data).Perm data := by
  induction fuel generalizing i data with
  | zero => rfl
  | succ fuel ih =>
    unfold siftUp
    split
    · exact (ih _ _).trans (swap_perm data _ _)
    · rfl

theorem siftUp_heapOrdered (hw : StrictWeak lower) {fuel : Nat} (hfuel : i ≤ fuel)
    (h : HeapBut lower data i (· = i)) : heapOrdered lower (siftUp lower fuel i data) = true := by
  induction fuel generalizing i data with
  | zero => exact h.heapOrdered_of_stop fun hi => absurd hi (by omega)
  | succ fuel ih =>
    unfold siftUp
    split
    · next hgo =>
      obtain ⟨hi, hlow⟩ : 0 < i ∧ lowerAt lower data (parent i) i = true := by simpa using hgo
      exact ih (Nat.le_of_lt_succ ((parent_lt hi).trans_le hfuel)) (h.swap_parent hw hi hlow)
    · next hstop => exact h.heapOrdered_of_stop fun hi => by simpa [hi] using hstop

/-! ## The end of the push (R378) -/

theorem push_of_full {cap : Nat} (h : data.length = cap) (lower : α → α → Bool) (x : α) :
    push lower cap x data = .error (.capacityExceeded .queue) := by
  simp [push, isFull, h]

theorem push_of_not_full {cap : Nat} (h : data.length ≠ cap) (lower : α → α → Bool) (x : α) :
    push lower cap x data = .ok (siftUp lower data.length data.length (data ++ [x])) := by
  simp [push, isFull, h]

theorem heapBut_append (hh : heapOrdered lower data = true) (x : α) :
    HeapBut lower (data ++ [x]) data.length (· = data.length) := by
  refine ⟨fun j hj hne => ?_, fun j _ hj hjp => lowerAt_of_le ?_ _⟩
  · by_cases hlt : j < data.length
    · rw [← heapOrdered_iff.mp hh j hj]
      exact lowerAt_congr (List.getElem?_append_left ((parent_lt hj).trans hlt)) (List.getElem?_append_left hlt)
    · exact lowerAt_of_le (by simp; omega) _
  · have hlt := parent_lt hj
    simp
    omega

/-! ## Sifting down (R379) -/

theorem higherChild_cases (lower : α → α → Bool) (data : List α) (i : Nat) :
    (higherChild lower data i = right i ∧ right i < data.length ∧ lowerAt lower data (left i) (right i) = true) ∨
    (higherChild lower data i = left i ∧ lowerAt lower data (left i) (right i) = false) := by
  unfold higherChild
  split
  · next h => exact .inl ⟨rfl, by simpa using h⟩
  · next h =>
    refine .inr ⟨rfl, ?_⟩
    by_cases hr : right i < data.length
    · simpa [hr] using h
    · exact lowerAt_of_le (Nat.le_of_not_lt hr) _

theorem parent_higherChild (lower : α → α → Bool) (data : List α) (i : Nat) :
    parent (higherChild lower data i) = i := by
  obtain ⟨h, -⟩ | ⟨h, -⟩ := higherChild_cases lower data i <;> rw [h]
  · exact parent_right i
  · exact parent_left i

theorem lt_higherChild (lower : α → α → Bool) (data : List α) (i : Nat) : i < higherChild lower data i := by
  obtain ⟨h, -⟩ | ⟨h, -⟩ := higherChild_cases lower data i <;> rw [h]
  · exact (lt_left i).trans (left_lt_right i)
  · exact lt_left i

theorem higherChild_lt_length (h : left i < data.length) : higherChild lower data i < data.length := by
  obtain ⟨hc, hr, -⟩ | ⟨hc, -⟩ := higherChild_cases lower data i <;> rw [hc]
  · exact hr
  · exact h

/-- The child the sift goes to is lower than no child. -/
theorem higherChild_not_lower (hw : StrictWeak lower) (hj : 0 < j) (hjp : parent j = i) :
    lowerAt lower data (higherChild lower data i) j = false := by
  obtain ⟨hc, -, hlow⟩ | ⟨hc, hlow⟩ := higherChild_cases lower data i <;> rw [hc] <;>
    obtain hj | hj := eq_left_or_right hj <;> rw [hj, hjp]
  · exact lowerAt_asymm hw hlow
  · exact lowerAt_irrefl hw data _
  · exact lowerAt_irrefl hw data _
  · exact hlow

/-- After the swap with its higher child the sifted element stands at that child, and what stands above is the child,
which is lower than neither the sifted element nor its sibling, nor than its own children. -/
theorem HeapBut.swap_higherChild (hw : StrictWeak lower) (h : HeapBut lower data i (parent · = i))
    (hlow : lowerAt lower data i (higherChild lower data i) = true) :
    HeapBut lower (swap data i (higherChild lower data i)) (higherChild lower data i)
      (parent · = higherChild lower data i) := by
  obtain ⟨hi, hc⟩ := lt_of_lowerAt hlow
  have hic := lt_higherChild lower data i
  have hcp := parent_higherChild lower data i
  have hhigh := fun j => higherChild_not_lower (lower := lower) (data := data) (i := i) (j := j) hw
  generalize higherChild lower data i = c at *
  refine ⟨fun j hj hne => ?_, fun j _ hj hjp => ?_⟩ <;> rw [lowerAt_swap hi hc]
  · have hjlt := parent_lt hj
    by_cases hjp : parent j = i
    · rw [hjp, Equiv.swap_apply_left]
      by_cases hjc : j = c
      · rw [hjc, Equiv.swap_apply_right]
        exact lowerAt_asymm hw hlow
      · rw [Equiv.swap_apply_of_ne_of_ne (by omega) hjc]
        exact hhigh j hj hjp
    rw [Equiv.swap_apply_of_ne_of_ne hjp hne]
    by_cases hji : j = i
    · subst hji
      rw [Equiv.swap_apply_left]
      exact h.bridge c hj (by omega) hcp
    · have hjc : j ≠ c := fun hjc => hjp (hjc ▸ hcp)
      rw [Equiv.swap_apply_of_ne_of_ne hji hjc]
      exact h.kept j hj hjp
  · have hjlt := parent_lt hj
    rw [hcp, Equiv.swap_apply_left, Equiv.swap_apply_of_ne_of_ne (by omega) (by omega), ← hjp]
    exact h.kept j hj (by omega)

/-- Where the sift down stops nothing is broken any more. -/
theorem HeapBut.heapOrdered_of_sunk (hw : StrictWeak lower) (h : HeapBut lower data i (parent · = i))
    (hstop : left i < data.length → lowerAt lower data i (higherChild lower data i) = false) :
    heapOrdered lower data = true := by
  refine heapOrdered_iff.mpr fun j hj => ?_
  by_cases hjp : parent j = i
  · by_cases hl : left i < data.length
    · rw [hjp]
      exact lowerAt_incomp hw (higherChild_lt_length hl) (hstop hl) (higherChild_not_lower hw hj hjp)
    · have hle : left i ≤ j := by
        have := left_lt_right i
        obtain hj | hj := eq_left_or_right hj <;> rw [hjp] at hj <;> omega
      exact lowerAt_of_le (by omega) _
  · exact h.kept j hj hjp

theorem siftDown_perm (lower : α → α → Bool) (fuel i : Nat) (data : List α) :
    (siftDown lower fuel i data).Perm data := by
  induction fuel generalizing i data with
  | zero => rfl
  | succ fuel ih =>
    unfold siftDown
    split
    · exact (ih _ _).trans (swap_perm data _ _)
    · rfl

theorem siftDown_heapOrdered (hw : StrictWeak lower) {fuel : Nat} (hfuel : data.length ≤ i + fuel)
    (h : HeapBut lower data i (parent · = i)) : heapOrdered lower (siftDown lower fuel i data) = true := by
  induction fuel generalizing i data with
  | zero =>
    rw [siftDown]
    exact h.heapOrdered_of_sunk hw fun hl => absurd (lt_left i) (by omega)
  | succ fuel ih =>
    unfold siftDown
    split
    · next hgo =>
      obtain ⟨-, hlow⟩ : left i < data.length ∧ lowerAt lower data i (higherChild lower data i) = true := by
        simpa using hgo
      have hic := lt_higherChild lower data i
      exact ih (by rw [length_swap]; omega) (h.swap_higherChild hw hlow)
    · next hstop => exact h.heapOrdered_of_sunk hw fun hl => by simpa [hl] using hstop

/-! ## The start of the pop (R379) -/

/-- The queue as the sift down of `pop` begins: without the root, the last element in its place. -/
def lastToRoot (x : α) (xs : List α) : List α := (swap (x :: xs) 0 xs.length).dropLast

theorem pop_cons (lower : α → α → Bool) (x : α) (xs : List α) :
    pop lower (x :: xs) = .ok (x, siftDown lower (lastToRoot x xs).length 0 (lastToRoot x xs)) := rfl

theorem lastToRoot_nil (x : α) : lastToRoot x [] = [] := rfl

theorem lastToRoot_concat (x : α) (ys : List α) (y : α) : lastToRoot x (ys ++ [y]) = y :: ys := by
  have hswap : swap (x :: (ys ++ [y])) 0 (ys ++ [y]).length = (y :: ys) ++ [x] := by
    rw [swap_eq (by simp) (by simp)]
    simp
  rw [lastToRoot, hswap, List.dropLast_concat]

theorem lastToRoot_perm (x : α) (xs : List α) : (lastToRoot x xs).Perm xs := by
  induction xs using List.reverseRecOn with
  | nil => rfl
  | append_singleton ys y => rw [lastToRoot_concat]; exact (List.perm_append_singleton y ys).symm

/-- Only the new root can be lower than a child of it. -/
theorem heapBut_lastToRoot {x : α} {xs : List α} (hh : heapOrdered lower (x :: xs) = true) :
    HeapBut lower (lastToRoot x xs) 0 (parent · = 0) := by
  refine ⟨fun j hj hp => ?_, fun _ h0 => absurd h0 (Nat.lt_irrefl 0)⟩
  induction xs using List.reverseRecOn with
  | nil => exact lowerAt_of_le (Nat.zero_le j) _
  | append_singleton ys y =>
    rw [lastToRoot_concat]
    by_cases hlt : j < (y :: ys).length
    · have hsame : ∀ k, 0 < k → k < (y :: ys).length → (y :: ys)[k]? = (x :: (ys ++ [y]))[k]? := by
        intro k hk hlen
        cases k with
        | zero => exact absurd hk (Nat.lt_irrefl 0)
        | succ n => exact (List.getElem?_append_left (Nat.lt_of_succ_lt_succ hlen)).symm
      rw [← heapOrdered_iff.mp hh j hj]
      exact lowerAt_congr (hsame _ (Nat.pos_of_ne_zero hp) ((parent_lt hj).trans hlt)) (hsame j hj hlt)
    · exact lowerAt_of_le (Nat.le_of_not_lt hlt) _

end Sys2Proof.Machine.Queue

namespace Sys2Proof.Machine

/-! ## Push and pop -/

/-- Settles O36: the sift permutes the queue with the new element at its end, which breaks the heap there at most. -/
theorem queuePush : Obligations.QueuePush := by
  intro α lower cap x data
  have hperm := Queue.siftUp_perm lower data.length data.length (data ++ [x])
  refine ⟨fun hfull => Queue.push_of_full hfull lower x,
    fun hroom => ⟨_, Queue.push_of_not_full hroom lower x, ?_, ?_, fun hw hh => ?_⟩⟩
  · exact hperm.trans (List.perm_append_singleton x data)
  · simpa using hperm.length_eq
  · exact Queue.siftUp_heapOrdered hw le_rfl (Queue.heapBut_append hh x)

/-- Settles O37: the sift permutes the queue whose root is the old last element, which breaks the heap there at most. -/
theorem queuePop : Obligations.QueuePop := by
  intro α lower
  refine ⟨rfl, fun x xs => ?_⟩
  have hperm := (Queue.siftDown_perm lower (Queue.lastToRoot x xs).length 0 _).trans (Queue.lastToRoot_perm x xs)
  refine ⟨_, Queue.pop_cons lower x xs, rfl, hperm.cons x, hperm.length_eq, fun hw hh => ⟨?_, ?_⟩⟩
  · exact fun y => Queue.root_not_lower hw hh
  · exact Queue.siftDown_heapOrdered hw (Nat.le_add_left _ _) (Queue.heapBut_lastToRoot hh)

end Sys2Proof.Machine
end

section
/-! PROOF. The scheduler's queue of events: the rebase lowers every event alike, so the heap stays one
(`RebaseKeepsDifferences`), and the events of a heap leave in order of their timestamps (`EventsLeaveInOrder`)
(48_priority_queue_scheduler.md R380, R382 to R387). -/

namespace Sys2Proof.Machine

variable {p : Config} {e root : Event} {data rest : List Event} {m : BitVec 64}

/-! ## The order of the events (R382) -/

theorem Event.lower_eq_false_iff {a b : Event} : a.lower b = false ↔ a.timestamp ≤ b.timestamp := by
  simp [Event.lower]

theorem Event.lower_strictWeak : StrictWeak Event.lower where
  irrefl _ := Event.lower_eq_false_iff.mpr (BitVec.le_refl _)
  trans a b c hab hbc := by
    simp only [Event.lower, decide_eq_true_eq] at *
    exact BitVec.lt_trans hbc hab
  incomp a b c hab hbc := by
    rw [Event.lower_eq_false_iff] at *
    exact BitVec.le_trans hab hbc

theorem root_timestamp_le (hh : Queue.heapOrdered Event.lower (root :: rest) = true) :
    ∀ x ∈ root :: rest, root.timestamp ≤ x.timestamp :=
  List.forall_mem_cons.mpr
    ⟨BitVec.le_refl _, fun _ hx => Event.lower_eq_false_iff.mp (Queue.root_not_lower Event.lower_strictWeak hh hx)⟩

/-! ## The rebase (R384) -/

theorem rebaseOffset_toNat (root e : Event) :
    (rebaseOffset root e).toNat = min root.timestamp.toNat e.timestamp.toNat := by
  unfold rebaseOffset
  split <;> next h => rw [BitVec.lt_def] at h; omega

theorem rebaseOffset_le_root (root e : Event) : rebaseOffset root e ≤ root.timestamp := by
  rw [BitVec.le_def, rebaseOffset_toNat]
  exact Nat.min_le_left _ _

theorem rebaseOffset_le_event (root e : Event) : rebaseOffset root e ≤ e.timestamp := by
  rw [BitVec.le_def, rebaseOffset_toNat]
  exact Nat.min_le_right _ _

/-- An event no earlier than the offset is lowered by it without wrap. -/
theorem Event.toNat_eq_rebase (h : m ≤ e.timestamp) :
    e.timestamp.toNat = (e.rebase m).timestamp.toNat + m.toNat := by
  unfold Event.rebase
  bv_omega

theorem Event.lower_rebase {a b : Event} (ha : m ≤ a.timestamp) (hb : m ≤ b.timestamp) :
    (a.rebase m).lower (b.rebase m) = a.lower b := by
  have ha := Event.toNat_eq_rebase ha
  have hb := Event.toNat_eq_rebase hb
  simp only [Event.lower, BitVec.lt_def, decide_eq_decide]
  omega

/-- Lowering every event alike leaves the heap a heap. -/
theorem heapOrdered_map_rebase (hh : Queue.heapOrdered Event.lower data = true)
    (hm : ∀ x ∈ data, m ≤ x.timestamp) : Queue.heapOrdered Event.lower (data.map (Event.rebase m)) = true := by
  rw [Queue.heapOrdered_iff] at *
  intro j hj
  by_cases hlt : j < data.length
  · have hp := (Queue.parent_lt hj).trans hlt
    have hsame := Event.lower_rebase (hm _ (List.getElem_mem hp)) (hm _ (List.getElem_mem hlt))
    rw [← hh j hj, Queue.lowerAt_eq (List.getElem?_eq_getElem hp) (List.getElem?_eq_getElem hlt), ← hsame]
    exact Queue.lowerAt_eq (by simp [hp]) (by simp [hlt])
  · exact Queue.lowerAt_of_le (by simpa using hlt) _

theorem rebaseFor_nil (p : Config) (e : Event) : rebaseFor p e [] = ([], e) := rfl

theorem rebaseFor_of_le (h : e.timestamp.toNat ≤ p.tsWrap) (data : List Event) : rebaseFor p e data = (data, e) := by
  cases data with
  | nil => rfl
  | cons root rest => exact if_neg (by omega)

theorem rebaseFor_of_lt (h : p.tsWrap < e.timestamp.toNat) (root : Event) (rest : List Event) :
    rebaseFor p e (root :: rest) =
      ((root :: rest).map (Event.rebase (rebaseOffset root e)), e.rebase (rebaseOffset root e)) :=
  if_pos h

theorem rebaseOffset_le (hh : Queue.heapOrdered Event.lower (root :: rest) = true) (e : Event) :
    ∀ x ∈ root :: rest, rebaseOffset root e ≤ x.timestamp :=
  fun x hx => BitVec.le_trans (rebaseOffset_le_root root e) (root_timestamp_le hh x hx)

/-- What the offset is taken from is at 0 afterwards: the new event or the root, whichever is earlier. -/
theorem exists_rebase_timestamp_eq_zero (root e : Event) (rest : List Event) :
    let m := rebaseOffset root e
    ∃ x ∈ e.rebase m :: (root :: rest).map (Event.rebase m), x.timestamp = 0 := by
  by_cases h : e.timestamp < root.timestamp
  · exact ⟨_, List.mem_cons_self, by simp [Event.rebase, rebaseOffset, h]⟩
  · exact ⟨_, List.mem_cons_of_mem _ List.mem_cons_self, by simp [Event.rebase, rebaseOffset, h]⟩

/-- Settles O38: on a heap the offset is above no event, so no subtraction wraps. -/
theorem rebaseKeepsDifferences : Obligations.RebaseKeepsDifferences := by
  intro p e root rest
  refine ⟨rebaseFor_nil p e, fun h => rebaseFor_of_le h _, fun h hh => ?_⟩
  have hle := rebaseOffset_le hh e
  rw [rebaseFor_of_lt h, ← rebaseOffset_toNat]
  exact ⟨List.forall₂_map_right_iff.mpr (List.forall₂_same.mpr fun x hx => ⟨Event.toNat_eq_rebase (hle x hx), rfl⟩),
    Event.toNat_eq_rebase (rebaseOffset_le_event root e), rfl, exists_rebase_timestamp_eq_zero root e rest,
    heapOrdered_map_rebase hh hle⟩

theorem rebaseFor_heapOrdered (hh : Queue.heapOrdered Event.lower data = true) (p : Config) (e : Event) :
    Queue.heapOrdered Event.lower (rebaseFor p e data).1 = true := by
  cases data with
  | nil => rfl
  | cons root rest =>
    by_cases h : p.tsWrap < e.timestamp.toNat
    · rw [rebaseFor_of_lt h]
      exact heapOrdered_map_rebase hh (rebaseOffset_le hh e)
    · rw [rebaseFor_of_le (Nat.le_of_not_lt h)]
      exact hh

@[simp] theorem rebaseFor_length (p : Config) (e : Event) (data : List Event) :
    (rebaseFor p e data).1.length = data.length := by
  cases data with
  | nil => rfl
  | cons root rest =>
    by_cases h : p.tsWrap < e.timestamp.toNat
    · simp [rebaseFor_of_lt h]
    · simp [rebaseFor_of_le (Nat.le_of_not_lt h)]

/-! ## Schedule (R383) -/

theorem schedule_of_full (h : data.length = p.pqCap) (e : Event) :
    schedule p e data = .error (.capacityExceeded .queue) := by
  simp [schedule, Queue.isFull, h]

theorem schedule_of_not_full (h : data.length ≠ p.pqCap) (e : Event) :
    schedule p e data = Queue.push Event.lower p.pqCap (rebaseFor p e data).2 (rebaseFor p e data).1 := by
  simp [schedule, Queue.isFull, h]

/-- A schedule that is not full adds the event to the rebased queue, and keeps the heap. -/
theorem schedule_adds (h : data.length ≠ p.pqCap) (e : Event) :
    ∃ q, schedule p e data = .ok q ∧ q.Perm ((rebaseFor p e data).2 :: (rebaseFor p e data).1) ∧
      (Queue.heapOrdered Event.lower data = true → Queue.heapOrdered Event.lower q = true) := by
  obtain ⟨-, hpush⟩ := queuePush Event Event.lower p.pqCap (rebaseFor p e data).2 (rebaseFor p e data).1
  obtain ⟨q, hq, hperm, -, hheap⟩ := hpush (by simpa using h)
  exact ⟨q, (schedule_of_not_full h e).trans hq, hperm,
    fun hh => hheap Event.lower_strictWeak (rebaseFor_heapOrdered hh p e)⟩

/-! ## Events in order (R385, R387) -/

/-- Draining a heap hands out each root before what the rest of the queue holds. -/
theorem drain_heap (hh : Queue.heapOrdered Event.lower data = true) :
    ∃ out, drain data.length data = .ok out ∧ out.Perm data ∧
      out.Pairwise fun x y => x.timestamp ≤ y.timestamp := by
  induction hn : data.length generalizing data with
  | zero =>
    obtain rfl := List.eq_nil_of_length_eq_zero hn
    exact ⟨[], rfl, .refl _, .nil⟩
  | succ n ih =>
    obtain ⟨root, rest, rfl⟩ := List.exists_cons_of_length_eq_add_one hn
    obtain ⟨q, hpop, -, hperm, hlen, hkeeps⟩ := (queuePop Event Event.lower).2 root rest
    obtain ⟨out, hdrain, hout, hsorted⟩ := ih (hkeeps Event.lower_strictWeak hh).2 (by simpa [hlen] using hn)
    have hall : (root :: out).Perm (root :: rest) := (hout.cons root).trans hperm
    refine ⟨root :: out, ?_, hall, hsorted.cons fun x hx => ?_⟩
    · simp [drain, executeNext, hpop, hdrain]
    · exact root_timestamp_le hh x (hall.mem_iff.mp (List.mem_cons_of_mem _ hx))

/-- Below the threshold no schedule rebases, so the queue holds the events themselves. -/
theorem scheduleAll_heap {es : List Event} (hw : ∀ e ∈ es, e.timestamp.toNat ≤ p.tsWrap)
    (hh : Queue.heapOrdered Event.lower data = true) (hcap : data.length + es.length ≤ p.pqCap) :
    ∃ q, scheduleAll p es data = .ok q ∧ q.Perm (data ++ es) ∧ Queue.heapOrdered Event.lower q = true := by
  induction es generalizing data with
  | nil => exact ⟨data, rfl, by simp, hh⟩
  | cons e es ih =>
    obtain ⟨he, hes⟩ := List.forall_mem_cons.mp hw
    rw [List.length_cons] at hcap
    obtain ⟨q, hq, hperm, hheap⟩ := schedule_adds (p := p) (data := data) (by omega) e
    rw [rebaseFor_of_le he] at hperm
    have hlen : q.length = data.length + 1 := hperm.length_eq
    obtain ⟨r, hr, hrperm, hrheap⟩ := ih hes (hheap hh) (by omega)
    refine ⟨r, by simp [scheduleAll, hq, hr], hrperm.trans ?_, hrheap⟩
    exact (hperm.append_right es).trans List.perm_middle.symm

/-- Settles O40: a drained heap is in order, and distinct timestamps in order are strictly so. -/
theorem eventsLeaveInOrder : Obligations.EventsLeaveInOrder := by
  refine ⟨fun _ => drain_heap, fun p es hcap hne hw => ?_⟩
  obtain ⟨q, hq, hperm, hheap⟩ := scheduleAll_heap (data := []) hw rfl (by simpa using hcap)
  obtain ⟨out, hdrain, hout, hsorted⟩ := drain_heap hheap
  rw [List.nil_append] at hperm
  rw [hperm.length_eq] at hdrain
  have hall : out.Perm es := hout.trans hperm
  have hdistinct : out.Pairwise fun x y => x.timestamp ≠ y.timestamp := (hall.pairwise_iff Ne.symm).mpr hne
  exact ⟨q, out, hq, hdrain, hall, hsorted.imp₂ (fun _ _ => BitVec.lt_of_le_ne) hdistinct⟩

end Sys2Proof.Machine
end

section
/-! PROOF. The queue's moves of the environment, and what every step keeps of the queue: `QueueTests`, `SchedulerPort`
and `StepKeepsQueueHeap` (48_priority_queue_scheduler.md R371 to R377, R383, R385, R388). -/

namespace Sys2Proof.Machine

variable {s t : State}

/-! ## The moves -/

/-- Settles O35: the moves are the queue's three tests, of which `front` alone fails. -/
theorem queueTests : Obligations.QueueTests := by
  intro s
  refine ⟨rfl, rfl, fun x xs hq => ?_, fun hq => ?_⟩
  · have hfront : Queue.front s.queue = .ok x := by rw [hq]; rfl
    rw [runMove, hfront]
    rfl
  · have hfront : Queue.front s.queue = .error (.emptyContainer .front) := by rw [hq]; rfl
    rw [runMove, hfront]
    rfl

/-- Settles O39: a full or empty queue is the failure that `queueFailure` latches, otherwise the queue is written. -/
theorem schedulerPort : Obligations.SchedulerPort := by
  intro s e
  refine ⟨fun hfull => ?_, fun hroom => ?_, fun hq => ?_, fun x xs hq => ?_⟩
  · rw [runMove, schedule_of_full hfull]
    rfl
  · obtain ⟨q, hok, hperm, -⟩ := schedule_adds hroom e
    refine ⟨q, ?_, hperm⟩
    rw [runMove, hok]
    rfl
  · have hnext : executeNext s.queue = .error (.emptyContainer .pop) := by rw [hq]; rfl
    rw [runMove, hnext]
    rfl
  · obtain ⟨q, hpop, -, hperm, -⟩ := (queuePop Event Event.lower).2 x xs
    have hnext : executeNext s.queue = .ok (x, q) := by rw [hq]; exact hpop
    refine ⟨q, ?_, hq ▸ hperm⟩
    rw [runMove, hnext]
    rfl

/-! ## The heap within capacity -/

theorem State.queueOk_congr (hs : s.queueOk) (hq : t.queue = s.queue) (hc : t.cfg = s.cfg) : t.queueOk := by
  unfold State.queueOk
  rw [hq, hc]
  exact hs

theorem BusOnly.queueOk (h : BusOnly s t) (hs : s.queueOk) : t.queueOk :=
  State.queueOk_congr hs (by rw [h]) (by rw [h])

/-- The queue after the outcome is a heap within capacity. -/
def QueueOkAfter (o : Out) : Prop := ∀ t, o = .next t → t.queueOk

theorem next_queueOkAfter (ht : t.queueOk) : QueueOkAfter (.next t) := by
  rintro _ ⟨⟩
  exact ht

theorem answer_queueOkAfter (hs : s.queueOk) (r : Reply) : QueueOkAfter (answer r s) := next_queueOkAfter hs

theorem cpuStep_queueOkAfter (hs : s.queueOk) : QueueOkAfter (cpuStep s) := by
  obtain ⟨t, ht, hframe, -⟩ := cpuStep_frame s
  rw [ht]
  exact next_queueOkAfter (State.queueOk_congr hs hframe.only.queue hframe.only.cfg)

theorem masterAccess_queueOkAfter {α : Type} (m : Nat) {op : State → Res α} (reply : α → Reply)
    (hs : s.queueOk) (h : BusOnly s (op s).state) : QueueOkAfter (masterAccess m op reply s) := by
  have hop := h.queueOk hs
  unfold masterAccess
  split
  · cases hres : op s <;> rw [hres] at hop <;> exact next_queueOkAfter hop
  · exact answer_queueOkAfter hs _

theorem push_queueOkAfter (hs : s.queueOk) (e : Event) :
    QueueOkAfter (queueWritten (Queue.push Event.lower s.cfg.pqCap e s.queue) s) := by
  obtain ⟨hheap, hlen⟩ := hs
  obtain ⟨hfull, hroom⟩ := queuePush Event Event.lower s.cfg.pqCap e s.queue
  by_cases h : s.queue.length = s.cfg.pqCap
  · rw [hfull h]
    exact next_queueOkAfter ⟨hheap, hlen⟩
  · obtain ⟨q, hq, -, hqlen, hqheap⟩ := hroom h
    rw [hq]
    exact next_queueOkAfter ⟨hqheap Event.lower_strictWeak hheap, hqlen.trans_le (Nat.lt_of_le_of_ne hlen h)⟩

theorem schedule_queueOkAfter (hs : s.queueOk) (e : Event) :
    QueueOkAfter (queueWritten (schedule s.cfg e s.queue) s) := by
  obtain ⟨hheap, hlen⟩ := hs
  by_cases h : s.queue.length = s.cfg.pqCap
  · rw [schedule_of_full h]
    exact next_queueOkAfter ⟨hheap, hlen⟩
  · obtain ⟨q, hq, hperm, hqheap⟩ := schedule_adds h e
    have hqlen : q.length = s.queue.length + 1 := by simpa using hperm.length_eq
    rw [hq]
    exact next_queueOkAfter ⟨hqheap hheap, hqlen.trans_le (Nat.lt_of_le_of_ne hlen h)⟩

theorem pop_queueOkAfter (hs : s.queueOk) : QueueOkAfter (queueTaken (Queue.pop Event.lower s.queue) s) := by
  obtain ⟨hheap, hlen⟩ := hs
  obtain ⟨hempty, hcons⟩ := queuePop Event Event.lower
  cases hq : s.queue with
  | nil =>
    rw [hempty]
    exact next_queueOkAfter ⟨hheap, hlen⟩
  | cons x xs =>
    obtain ⟨q, hpop, -, -, hqlen, hkeeps⟩ := hcons x xs
    rw [hq] at hheap hlen
    rw [hpop]
    exact next_queueOkAfter ⟨(hkeeps Event.lower_strictWeak hheap).2, hqlen.trans_le (Nat.le_of_succ_le hlen)⟩

theorem queueSeen_queueOkAfter (hs : s.queueOk) (x : Except Fault Event) : QueueOkAfter (queueSeen x s) := by
  cases x <;> exact next_queueOkAfter hs

/-- Only the queue's own moves write the queue, and none a parameter. -/
theorem runMove_queueOkAfter (hs : s.queueOk) (m : Move) : QueueOkAfter (runMove m s) := by
  cases m with
  | cpuStep => exact cpuStep_queueOkAfter hs
  | setFlag k => exact answer_queueOkAfter (State.queueOk_congr hs (by simp) (by simp)) _
  | clearFlag k => exact answer_queueOkAfter (State.queueOk_congr hs (by simp) (by simp)) _
  | busRead m a => exact masterAccess_queueOkAfter m _ hs (busRead_busOnly a s)
  | busWrite m a v => exact masterAccess_queueOkAfter m _ hs (busWrite_busOnly a v s)
  | lock m =>
    rw [runMove]
    split
    · exact answer_queueOkAfter (s := s.lockBy _) hs _
    · exact answer_queueOkAfter hs _
  | unlock m => exact answer_queueOkAfter (State.queueOk_congr hs (by simp) (by simp)) _
  | schedule e => exact schedule_queueOkAfter hs e
  | push e => exact push_queueOkAfter hs e
  | executeNext | pop => exact pop_queueOkAfter hs
  | front => exact queueSeen_queueOkAfter hs _
  | isEmpty | isFull => exact answer_queueOkAfter hs _

theorem takeMove_queueOk (hs : s.queueOk) : s.takeMove.2.queueOk := by
  unfold State.takeMove
  split
  · exact hs
  · split <;> exact hs

/-- Settles O31: every move keeps the heap within capacity, and of a heap the root is least. -/
theorem stepKeepsQueueHeap : Obligations.StepKeepsQueueHeap := by
  refine ⟨fun s t hs ht => ?_, fun s root e hs hroot he => ?_⟩
  · by_cases hf : s.fault = none
    · rw [step_of_no_fault hf] at ht
      exact runMove_queueOkAfter (takeMove_queueOk hs) _ t ht
    · cases (step_of_fault hf).symm.trans ht
      exact hs
  · obtain ⟨rest, hq⟩ := List.head?_eq_some_iff.mp hroot
    obtain ⟨hheap, -⟩ := hs
    rw [hq] at hheap he
    exact root_timestamp_le hheap e he

end Sys2Proof.Machine
end

section
/-! PROOF. The unmapped ranges of the default map: `DefaultMapHoles` (60_exceptions.md R422). -/

namespace Sys2Proof.Machine

variable {s : State} {a : Word} {c : Connection}

/-- The addresses that no connection of the default map claims (R422). -/
theorem decodeAddr_defaultMap_eq_none_iff : decodeAddr defaultMap a = none ↔
    (0x8000 ≤ a ∧ a ≤ 0xBFFF) ∨ (0xFE00 ≤ a ∧ a ≤ 0xFF0E) ∨ (0xFF10 ≤ a ∧ a ≤ 0xFF7F) := by
  obtain ⟨-, hnone⟩ := firstMatchDecoder defaultMap a
  rw [hnone]
  simp only [defaultMap, List.forall_mem_cons, List.not_mem_nil, false_implies, implies_true, and_true]
  bv_omega

theorem defaultMap_ports : ∀ c ∈ defaultMap,
    c.port = .rom ∨ c.port = .ram ∨ c.port = .ifReg ∨ c.port = .ieReg := by
  decide

/-- A connection of the default map fails no access that is decoded to it: storage takes every offset, and the
interrupt registers are called at their own addresses only. -/
theorem defaultMap_accesses_complete (hs : s.bus = defaultMap) (hd : decodeAddr s.bus a = some c) (v : Byte) :
    (∃ w, busRead a s = .ok w s) ∧ ∃ t, busWrite a v s = .ok () t := by
  obtain ⟨hmem, -⟩ := mem_and_claims_of_decode hd
  obtain ⟨hif, hie, haif, haie, -⟩ := interruptRegistersOnBus s c a v
  rw [hs] at hmem
  rw [← hs] at haif haie
  obtain hp | hp | hp | hp := defaultMap_ports c hmem
  · exact ⟨⟨_, busRead_cell hd (.inl hp)⟩, _, busWrite_rom v hd hp⟩
  · exact ⟨⟨_, busRead_cell hd (.inr hp)⟩, _, busWrite_ram v hd hp⟩
  · rw [busRead_of_decode hd, busWrite_of_decode v hd, haif hd hp]
    obtain ⟨hr, hw, -⟩ := hif hp
    exact ⟨⟨_, hr⟩, _, hw⟩
  · rw [busRead_of_decode hd, busWrite_of_decode v hd, haie hd hp]
    obtain ⟨hr, hw, -⟩ := hie hp
    exact ⟨⟨_, hr⟩, _, hw⟩

/-- Settles O9: the holes are the addresses that decode to nothing, and what is decoded completes. -/
theorem defaultMapHoles : Obligations.DefaultMapHoles := by
  intro s a v hs
  rw [← decodeAddr_defaultMap_eq_none_iff, ← hs]
  refine ⟨fun h => ⟨busRead_unmapped h, busWrite_unmapped v h⟩, fun h => ?_⟩
  obtain ⟨c, hd⟩ := Option.ne_none_iff_exists'.mp h
  exact defaultMap_accesses_complete hs hd v

end Sys2Proof.Machine
end

section
/-! PROOF. The interrupt controller and the entry: `RequestPort`, `PriorityEncoderAndVectors` and `InterruptEntry`
(60_exceptions.md R401 to R414). -/

namespace Sys2Proof.Machine

variable {s : State} {k : Source}

/-! ## Sources and their numbers (R401, R402) -/

theorem Source.bit_lt (k : Source) : k.bit < 5 := by
  cases k <;> decide

theorem Source.exists_bit_eq {n : Nat} (h : n < 5) : ∃ k : Source, k.bit = n := by
  interval_cases n
  exacts [⟨.vblank, rfl⟩, ⟨.lcdStat, rfl⟩, ⟨.timer, rfl⟩, ⟨.serial, rfl⟩, ⟨.joypad, rfl⟩]

theorem Source.ofCode_bit (k : Source) : Source.ofCode k.bit = some k := by
  cases k <;> rfl

theorem Source.bit_injective {j k : Source} (h : j.bit = k.bit) : j = k := by
  have hj := j.ofCode_bit
  rw [h, k.ofCode_bit] at hj
  exact (Option.some.inj hj).symm

theorem Source.ofCode_of_ge {n : Nat} (h : 5 ≤ n) : Source.ofCode n = none := by
  unfold Source.ofCode
  split
  case h_6 => rfl
  all_goals omega

theorem Source.getLsbD_mask (k : Source) (j : Nat) : k.mask.getLsbD j = decide (j = k.bit) := by
  have hk : k.bit < 8 := k.bit_lt.trans (by decide)
  rw [Source.mask, ← BitVec.twoPow_eq, BitVec.getLsbD_twoPow]
  simp [hk, eq_comm]

/-! ## The request port -/

theorem State.setFlag_bit (s : State) (k : Source) : s.setFlag k.bit = { s with ifl := s.ifl ||| k.mask } := by
  rw [State.setFlag, k.ofCode_bit]

theorem State.clearFlag_bit (s : State) (k : Source) : s.clearFlag k.bit = s.clearRequest k := by
  rw [State.clearFlag, k.ofCode_bit]

theorem State.setFlag_of_ge (s : State) {n : Nat} (h : 5 ≤ n) : s.setFlag n = s := by
  rw [State.setFlag, Source.ofCode_of_ge h]

theorem State.clearFlag_of_ge (s : State) {n : Nat} (h : 5 ≤ n) : s.clearFlag n = s := by
  rw [State.clearFlag, Source.ofCode_of_ge h]

/-- Settles O25: a number below 5 is the bit position of a source, whose mask has that one bit. -/
theorem requestPort : Obligations.RequestPort := by
  intro s n
  simp only [runMove]
  refine ⟨fun hn => ?_, fun hn => ?_⟩
  · obtain ⟨k, rfl⟩ := Source.exists_bit_eq hn
    rw [State.setFlag_bit, State.clearFlag_bit]
    refine ⟨s.ifl ||| k.mask, s.ifl &&& ~~~k.mask, rfl, rfl, fun j hj => ?_⟩
    rw [BitVec.getLsbD_or, BitVec.getLsbD_and, BitVec.getLsbD_not, k.getLsbD_mask]
    simp [hj]
  · rw [State.setFlag_of_ge s hn, State.clearFlag_of_ge s hn]
    exact ⟨rfl, rfl⟩

/-! ## The priority encoder -/

/-- LCD-status is the one source that the parameter can keep from being scanned (R407). -/
theorem Config.getLsbD_scanMask (p : Config) (k : Source) :
    (Config.scanMask p).getLsbD k.bit = true ↔ (k = .lcdStat → p.lcdStatScanned = true) := by
  unfold Config.scanMask
  cases p.lcdStatScanned <;> cases k <;> decide

theorem State.getLsbD_pending (s : State) (k : Source) : s.pending.getLsbD k.bit = true ↔
    s.ie.getLsbD k.bit = true ∧ s.ifl.getLsbD k.bit = true ∧ (k = .lcdStat → s.cfg.lcdStatScanned = true) := by
  simp only [State.pending, BitVec.getLsbD_and, Bool.and_eq_true, Config.getLsbD_scanMask, and_assoc]

theorem lowestSource_eq_none_iff_sources (m : Byte) :
    lowestSource m = none ↔ ∀ k : Source, ¬ m.getLsbD k.bit = true := by
  rw [lowestSource_eq_none_iff]
  refine ⟨fun h k => by simp [h k.bit k.bit_lt], fun h j hj => ?_⟩
  obtain ⟨k, rfl⟩ := Source.exists_bit_eq hj
  exact Bool.eq_false_iff.mpr (h k)

/-- The bit of the source found is set, and no bit below it is. -/
theorem lowestSource_spec {m : Byte} (h : lowestSource m = some k) :
    m.getLsbD k.bit = true ∧ ∀ i < k.bit, ¬ m.getLsbD i = true := by
  unfold lowestSource at h
  split_ifs at h
  all_goals
    cases h
    refine ⟨‹_›, fun i hi => ?_⟩
    rw [Source.bit] at hi
    interval_cases i <;> assumption

theorem lowestSource_eq_some_iff (m : Byte) (k : Source) : lowestSource m = some k ↔
    m.getLsbD k.bit = true ∧ ∀ j : Source, j.bit < k.bit → ¬ m.getLsbD j.bit = true := by
  refine ⟨fun h => ?_, fun ⟨hk, hlow⟩ => ?_⟩
  · obtain ⟨hk, hlow⟩ := lowestSource_spec h
    exact ⟨hk, fun j => hlow j.bit⟩
  · cases hm : lowestSource m with
    | none => exact absurd hk ((lowestSource_eq_none_iff_sources m).mp hm k)
    | some j =>
      obtain ⟨hj, hlow'⟩ := lowestSource_spec hm
      have hjk : k.bit ≤ j.bit := not_lt.mp fun h => hlow j h hj
      have hkj : j.bit ≤ k.bit := not_lt.mp fun h => hlow' k.bit h hk
      rw [Source.bit_injective (hkj.antisymm hjk)]

/-! ## The vectors -/

theorem Source.vector_eq (k : Source) : k.vector = BitVec.ofNat 16 (0x0040 + 8 * k.bit) := by
  cases k <;> rfl

theorem getVector_bit (k : Source) (s : State) : getVector k.bit s = .ok k.vector s := by
  rw [getVector, k.ofCode_bit]

theorem getVector_of_ge {n : Nat} (h : 5 ≤ n) (s : State) :
    getVector n s = .raised { s with fault := some (.illegalSource n) } := by
  rw [getVector, Source.ofCode_of_ge h, raise]

/-- Settles O24: `getTop` is `lowestSource` of the pending requests, and the vector table is `getVector_bit`. -/
theorem priorityEncoderAndVectors : Obligations.PriorityEncoderAndVectors := by
  refine ⟨fun s => ?encoder, fun s n => ⟨fun hn => ?legal, fun hn => getVector_of_ge hn s,
    getVector_bit _ s, getVector_bit _ s, getVector_bit _ s, getVector_bit _ s, getVector_bit _ s⟩⟩
  case encoder =>
    simp only [← s.getLsbD_pending]
    exact ⟨rfl, lowestSource_eq_some_iff s.pending, lowestSource_eq_none_iff_sources s.pending⟩
  case legal =>
    obtain ⟨k, rfl⟩ := Source.exists_bit_eq hn
    rw [getVector_bit, k.vector_eq]

/-! ## Interrupt entry -/

/-- A request that `getTop` gives wakes a halted CPU. -/
theorem State.pending_ne_zero_of_getTop {ime : Bool} (h : s.getTop ime = some k) : s.pending ≠ 0 := by
  intro hp
  cases ime with
  | false => cases h
  | true => cases (s.getTop_true_eq_none_iff.mpr hp).symm.trans h

/-- With a source to be serviced the step is Interrupt-Service, of a halted CPU once woken (R40, R353, R409). -/
theorem step_of_getTop (hs : s.active) (hk : s.getTop s.ime = some k) :
    step s = (interruptService k { s with halted := false }).finish := by
  have hwoken : step { s with halted := false } = (interruptService k { s with halted := false }).finish := by
    rw [step_of_active (s := { s with halted := false }) hs rfl, dispatchStep]
    split
    case h_1 j hj => cases hj.symm.trans hk; rfl
    case h_2 hj => cases hj.symm.trans hk
  cases hh : s.halted with
  | false =>
    have hs' : { s with halted := false } = s := by rw [← hh]
    rwa [hs'] at hwoken ⊢
  | true =>
    obtain ⟨-, hwake⟩ := haltedCpu s hs hh
    obtain ⟨hstep, -⟩ := hwake (State.pending_ne_zero_of_getTop hk)
    exact hstep.trans hwoken

/-- How Interrupt-Service ends after the push: the jump to the vector, the cost, and the lock freed (R413). -/
def interruptEnd (k : Source) (x : Res Unit) : Out :=
  (x.bind fun _ t => .ok () ((({ t with pc := k.vector } : State).tick cyclesInterrupt).unlockBy .cpu)).finish

theorem interruptService_finish (k : Source) (s : State) :
    (interruptService k s).finish = interruptEnd k (push16 s.pc (s.entered k)) := by
  rw [interruptService_eq, interruptEnd]

theorem interruptEnd_ok {t : State} (k : Source) (h : t.lock = some .cpu) :
    interruptEnd k (.ok () t) =
      .next { t with pc := BitVec.ofNat 16 (0x0040 + 8 * k.bit), cyc := t.cyc + 5, lock := none } := by
  simp only [interruptEnd, Res.bind_ok, k.vector_eq, State.unlockBy, State.tick, h, if_true]
  rfl

/-- Settles O23: the step is a push in the entered state, which `interruptEnd` continues. -/
theorem interruptEntry : Obligations.InterruptEntry := by
  intro s k hs hk
  refine pushesThen_of (interruptEnd k) ?_ (fun _ => rfl) fun t ht h => ?_
  · exact (step_of_getTop hs hk).trans (interruptService_finish k _)
  · rw [h, interruptEnd_ok k ht.lock, ht.cyc]

end Sys2Proof.Machine
end
